-- ==== Sys2Proof/Word.lean ====
section
/-! DEFINITION. The words of the block: bytes and 16-bit words, both unsigned (00_scope.md R9). -/

namespace Sys2Proof

/-- `u8` of 00_scope.md R9. -/
abbrev Byte := BitVec 8

/-- `u16` of 00_scope.md R9. -/
abbrev U16 := BitVec 16

end Sys2Proof
end

