-- ==== Sys2Proof/Config.lean ====
section
/-! DEFINITION. What is fixed for an instance: the wire format and the open latch parameter (00_scope.md R6, R8),
and the fixed constants of 00_scope.md R7, each a name of its own. -/

namespace Sys2Proof

/-- The wire format an instance is built for (00_scope.md R2, R6). -/
inductive Format
  | v2
  | legacy
  deriving DecidableEq, Repr

/-- The configuration of an instance, fixed for its life (00_scope.md R6, 10_state.md R15).
No operation reads it out and none writes it. -/
structure Config where
  /-- `FORMAT` (00_scope.md R6). -/
  format : Format
  /-- `CLEAR_LATCH_ON_REPORT`, left open by the spec (00_scope.md R8, 43_tx_framer.md R95): both values are
  instances of this model. -/
  clearLatchOnReport : Bool
  deriving DecidableEq, Repr

namespace Config

/-- `HDR0` (00_scope.md R7). -/
def hdr0 : Byte := 0xAA

/-- `HDR1` (00_scope.md R7). -/
def hdr1 : Byte := 0xBB

/-- `MIN_PAYLOAD` (00_scope.md R7). -/
abbrev minPayload : Nat := 1

/-- `MAX_PAYLOAD` (00_scope.md R7). -/
abbrev maxPayload : Nat := 506

/-- `MAX_FRAME` (00_scope.md R7). -/
abbrev maxFrame : Nat := 512

/-- `LEGACY_CMD_LEN` (00_scope.md R7). -/
abbrev legacyCmdLen : Nat := 8

/-- The bytes of a legacy command before its CRC-8 trailer (30_encoding.md R46). -/
abbrev legacyContentLen : Nat := legacyCmdLen - 1

/-- `LEGACY_RSP_LEN` (00_scope.md R7). -/
abbrev legacyRspLen : Nat := 24

/-- `CRC8_POLY` (00_scope.md R7). -/
def crc8Poly : Byte := 0x07

/-- `CRC8_INIT` (00_scope.md R7). -/
def crc8Init : Byte := 0x00

/-- `CRC16_POLY` (00_scope.md R7). -/
def crc16Poly : U16 := 0x1021

/-- `CRC16_INIT` (00_scope.md R7). -/
def crc16Init : U16 := 0xFFFF

end Config

end Sys2Proof
end

