-- ==== Sys2Proof/Syntax.lean ====
section
/-! DEFINITION. The operations of the block (30_encoding.md R51), one constructor a row of spec/opcode_table.json,
the raw operation a decoder is given (R50), and the names of the refusal reasons (60_exceptions.md R106). -/

namespace Sys2Proof

/-- The operations of 30_encoding.md R51 with their operands. -/
inductive Instr
  /-- RX_BYTE b: one received byte (41_rx_v2.md R66, 42_rx_legacy.md R82). -/
  | rxByte (b : Byte)
  /-- TX_SEND_V2 data: frame a v2 payload (43_tx_framer.md R91). -/
  | txSendV2 (data : List Byte)
  /-- TX_SEND_LEGACY data: frame a legacy response body (43_tx_framer.md R94). -/
  | txSendLegacy (data : List Byte)
  /-- CRC8_INIT (40_crc.md R62). -/
  | crc8Init
  /-- CRC8_BYTE b (40_crc.md R63). -/
  | crc8Byte (b : Byte)
  /-- CRC16_INIT (40_crc.md R64). -/
  | crc16Init
  /-- CRC16_BYTE b (40_crc.md R65). -/
  | crc16Byte (b : Byte)
  /-- CLEAR_CRC_ERR (44_control.md R98). -/
  | clearCrcErr
  /-- RESET (44_control.md R99). -/
  | reset
  deriving DecidableEq, Repr

/-- One operation as the environment issues it (30_encoding.md R50): the operation word, and the byte-sequence
operand `data` where one is attached. -/
structure Operation where
  word : U16
  data : Option (List Byte)
  deriving DecidableEq, Repr

/-- Why an operation is refused (60_exceptions.md R106), in the order in which the reasons are tried. -/
inductive RefuseReason
  /-- `NONZERO_Z`: bits 11:8 of the word are not 0. -/
  | nonzeroZ
  /-- `RESERVED_OP`: `op` is 0x0 or one of 0x9 to 0xE. -/
  | reservedOp
  /-- `NONZERO_IMM`: `imm8` is not 0 on an operation that takes no byte operand. -/
  | nonzeroImm
  /-- `DATA_MISMATCH`: `data` attached where none is taken, or missing where it is. -/
  | dataMismatch
  /-- `WRONG_FORMAT`: a TX_SEND of the other wire format. -/
  | wrongFormat
  /-- `TX_LENGTH`: a TX_SEND whose `data` has an illegal length. -/
  | txLength
  deriving DecidableEq, Repr

/-- The rows of the operation map, without their operands (30_encoding.md R51). -/
inductive Opcode
  | rxByte
  | txSendV2
  | txSendLegacy
  | crc8Init
  | crc8Byte
  | crc16Init
  | crc16Byte
  | clearCrcErr
  | reset
  deriving DecidableEq, Repr

/-- The row of the operation map an operation belongs to. -/
def Instr.opcode : Instr → Opcode
  | .rxByte _ => .rxByte
  | .txSendV2 _ => .txSendV2
  | .txSendLegacy _ => .txSendLegacy
  | .crc8Init => .crc8Init
  | .crc8Byte _ => .crc8Byte
  | .crc16Init => .crc16Init
  | .crc16Byte _ => .crc16Byte
  | .clearCrcErr => .clearCrcErr
  | .reset => .reset

end Sys2Proof
end

