-- ==== Sys2Proof/WellFormed.lean ====
section
/-! DEFINITION. Which operations an instance of a wire format may be given (30_encoding.md R52, the rows that speak of
operands; every byte operand is legal). -/

namespace Sys2Proof

/-- Legal in an instance built for `f`: a TX_SEND only in its own format (30_encoding.md R52, R54), a v2 payload of 1 to
506 bytes (43_tx_framer.md R91), a legacy body of exactly 23 bytes (43_tx_framer.md R94). Everything else is legal in
both formats (30_encoding.md R51). -/
def Instr.wellFormed (f : Format) : Instr → Bool
  | .rxByte _ => true
  | .txSendV2 data =>
    decide (f = .v2) && decide (Config.minPayload ≤ data.length) && decide (data.length ≤ Config.maxPayload)
  | .txSendLegacy data => decide (f = .legacy) && decide (data.length + 1 = Config.legacyRspLen)
  | .crc8Init => true
  | .crc8Byte _ => true
  | .crc16Init => true
  | .crc16Byte _ => true
  | .clearCrcErr => true
  | .reset => true

end Sys2Proof
end

