-- ==== Sys2Proof/Decode.lean ====
section
/-! DEFINITION. The operation word's fields (30_encoding.md R50), the operation map (R51), the total decoder (R57), the
encoder, and the decoder on words numbered as spec/opcode_table.json numbers them. -/

namespace Sys2Proof

/-! ### Fields of the operation word (30_encoding.md R50) -/

/-- `op`, bits 15:12. -/
def opField (w : U16) : BitVec 4 := w.extractLsb' 12 4

/-- `z`, bits 11:8. -/
def zField (w : U16) : BitVec 4 := w.extractLsb' 8 4

/-- `imm8`, bits 7:0, used as the byte it spells. -/
def immField (w : U16) : Byte := w.extractLsb' 0 8

/-- The word of the three fields, `op` on top. -/
def packWord (op z : BitVec 4) (imm : Byte) : U16 := op ++ z ++ imm

/-! ### The operation map (30_encoding.md R51) -/

/-- The `op` code of a row. -/
def Opcode.code : Opcode → BitVec 4
  | .rxByte => 0x1
  | .txSendV2 => 0x2
  | .txSendLegacy => 0x3
  | .crc8Init => 0x4
  | .crc8Byte => 0x5
  | .crc16Init => 0x6
  | .crc16Byte => 0x7
  | .clearCrcErr => 0x8
  | .reset => 0xF

/-- The row of an `op` code. The codes 0x0 and 0x9 to 0xE are reserved (30_encoding.md R52). -/
def Opcode.ofCode (c : BitVec 4) : Option Opcode :=
  match c.toNat with
  | 1 => some .rxByte
  | 2 => some .txSendV2
  | 3 => some .txSendLegacy
  | 4 => some .crc8Init
  | 5 => some .crc8Byte
  | 6 => some .crc16Init
  | 7 => some .crc16Byte
  | 8 => some .clearCrcErr
  | 15 => some .reset
  | _ => none

/-- Whether the row's `imm8` column is a byte operand (otherwise `imm8` must be 0x00). -/
def Opcode.takesByte : Opcode → Bool
  | .rxByte => true
  | .txSendV2 => false
  | .txSendLegacy => false
  | .crc8Init => false
  | .crc8Byte => true
  | .crc16Init => false
  | .crc16Byte => true
  | .clearCrcErr => false
  | .reset => false

/-- Whether the row takes a `data` operand. -/
def Opcode.takesData : Opcode → Bool
  | .rxByte => false
  | .txSendV2 => true
  | .txSendLegacy => true
  | .crc8Init => false
  | .crc8Byte => false
  | .crc16Init => false
  | .crc16Byte => false
  | .clearCrcErr => false
  | .reset => false

/-- The row's `formats` column. -/
def Opcode.legalIn (f : Format) : Opcode → Bool
  | .rxByte => true
  | .txSendV2 => decide (f = .v2)
  | .txSendLegacy => decide (f = .legacy)
  | .crc8Init => true
  | .crc8Byte => true
  | .crc16Init => true
  | .crc16Byte => true
  | .clearCrcErr => true
  | .reset => true

/-- Whether a `data` operand of `n` bytes has a legal length for the row (a row without `data` has none to check). -/
def Opcode.lengthOk (n : Nat) : Opcode → Bool
  | .rxByte => true
  | .txSendV2 => decide (Config.minPayload ≤ n) && decide (n ≤ Config.maxPayload)
  | .txSendLegacy => decide (n + 1 = Config.legacyRspLen)
  | .crc8Init => true
  | .crc8Byte => true
  | .crc16Init => true
  | .crc16Byte => true
  | .clearCrcErr => true
  | .reset => true

/-- The operation of a row with its operands (a row drops the operand it does not take). -/
def Opcode.build (imm : Byte) (data : List Byte) : Opcode → Instr
  | .rxByte => .rxByte imm
  | .txSendV2 => .txSendV2 data
  | .txSendLegacy => .txSendLegacy data
  | .crc8Init => .crc8Init
  | .crc8Byte => .crc8Byte imm
  | .crc16Init => .crc16Init
  | .crc16Byte => .crc16Byte imm
  | .clearCrcErr => .clearCrcErr
  | .reset => .reset

/-! ### The decoder (30_encoding.md R57) -/

/-- Decode an operation for an instance built for `f`, or name the first check that fails, in the order of
30_encoding.md R57 and 60_exceptions.md R106. -/
def decode (f : Format) (o : Operation) : Except RefuseReason Instr :=
  if zField o.word ≠ 0 then .error .nonzeroZ
  else
    match Opcode.ofCode (opField o.word) with
    | none => .error .reservedOp
    | some k =>
      if k.takesByte = false ∧ immField o.word ≠ 0 then .error .nonzeroImm
      else if o.data.isSome ≠ k.takesData then .error .dataMismatch
      else if k.legalIn f = false then .error .wrongFormat
      else if k.lengthOk (o.data.getD []).length = false then .error .txLength
      else .ok (k.build (immField o.word) (o.data.getD []))

/-! ### The encoder -/

/-- The byte an operation carries in `imm8` (0x00 where it takes none). -/
def Instr.imm : Instr → Byte
  | .rxByte b => b
  | .txSendV2 _ => 0x00
  | .txSendLegacy _ => 0x00
  | .crc8Init => 0x00
  | .crc8Byte b => b
  | .crc16Init => 0x00
  | .crc16Byte b => b
  | .clearCrcErr => 0x00
  | .reset => 0x00

/-- The `data` operand an operation carries. -/
def Instr.data : Instr → Option (List Byte)
  | .rxByte _ => none
  | .txSendV2 data => some data
  | .txSendLegacy data => some data
  | .crc8Init => none
  | .crc8Byte _ => none
  | .crc16Init => none
  | .crc16Byte _ => none
  | .clearCrcErr => none
  | .reset => none

/-- The word and operand of an operation (30_encoding.md R50, R51). -/
def encode (i : Instr) : Operation where
  word := packWord i.opcode.code 0x0 i.imm
  data := i.data

/-! ### Words as spec/opcode_table.json numbers them

The table gives a word no bits for `data`, so the operand is the bits above bit 15, byte `k` at bits 16 + 8k to 23 + 8k,
and its length is the shortest legal one: 1 byte for TX_SEND_V2, 23 bytes for TX_SEND_LEGACY (DESIGN CHOICE, log 6). -/

/-- `n` bytes of `v` from bit 16 up, lowest first. -/
def tableData (n v : Nat) : List Byte :=
  (List.range n).map fun k => BitVec.ofNat 8 (v / 2 ^ (16 + 8 * k))

/-- The operation whose bits are the low `nbits` bits of `w`. -/
def tableOperation (nbits w : Nat) : Operation :=
  let v := w % 2 ^ nbits
  let word : U16 := BitVec.ofNat 16 v
  match Opcode.ofCode (opField word) with
  | some .txSendV2 => ⟨word, some (tableData Config.minPayload v)⟩
  | some .txSendLegacy => ⟨word, some (tableData (Config.legacyRspLen - 1) v)⟩
  | _ => ⟨word, none⟩

/-- The format of an instance that may be given the operation: a TX_SEND names its own (30_encoding.md R51), any other
keeps `f` (DESIGN CHOICE, log 6). -/
def tableFormat (o : Operation) (f : Format) : Format :=
  match Opcode.ofCode (opField o.word) with
  | some .txSendV2 => .v2
  | some .txSendLegacy => .legacy
  | _ => f

/-- The operation the decoder reads from the table's bits, in an instance that may be given it. -/
def decodeTableWord (nbits w : Nat) : Option Instr :=
  match decode (tableFormat (tableOperation nbits w) .v2) (tableOperation nbits w) with
  | .ok i => some i
  | .error _ => none

end Sys2Proof
end

