-- ==== Sys2Proof/Machine/State.lean ====
section
/-! DEFINITION. All the state the spec gives the block (10_state.md R16 to R31), the output events (30_encoding.md R55),
the reasons a step can stop, and the state after reset (70_reset_and_hazards.md R116). -/

namespace Sys2Proof.Machine

/-- The receive states of the v2 reassembler (10_state.md R18). Code 7 has no constructor, so no state of the model
holds it (log 12). -/
inductive RxState
  | awaitHeaderByte0
  | awaitHeaderByte1
  | awaitLengthLow
  | awaitLengthHigh
  | awaitPayload
  | awaitCrcLow
  | awaitCrcHigh
  deriving DecidableEq, Repr

/-- Output events (30_encoding.md R55). -/
inductive Event
  /-- The payload of one accepted v2 frame. -/
  | rxFrameV2 (payload : List Byte)
  /-- Bytes 0 to 6 of one accepted legacy command window. -/
  | rxCmdLegacy (cmd : List Byte)
  /-- One complete frame for the serial link. -/
  | txBytes (frame : List Byte)
  deriving DecidableEq, Repr

/-- What stops the machine. The spec has no such thing: "Nothing in this engine is fatal" (60_exceptions.md R101). -/
inductive Fault
  /-- An access to an index of `rx_buf` beyond 505. Raised by RX_BYTE in states AWAIT_PAYLOAD and AWAIT_CRC_HIGH of the
  v2 reassembler, only in states that break 10_state.md R24 and that no run reaches. Safe: the model stops where the
  spec says nothing (log 8). -/
  | rxBufOverrun
  deriving DecidableEq, Repr

/-- An operation without a meaning. -/
inductive Refusal
  /-- Raised by no operation: every row of the opcode table has its meaning. Safe. (The spec's own refusals of
  60_exceptions.md R106 are next states with `refused` set, log 5.) -/
  | notModelled (mnemonic : String)
  deriving DecidableEq, Repr

/-- The state of an instance. Both reassemblers' registers stand in it; an instance uses those of its format (log 12). -/
structure State where
  /-- The configuration, fixed for the life of the instance (00_scope.md R6, R8). -/
  cfg : Config
  /-- `crc_err_latch`, the sticky checksum-error latch (10_state.md R16). -/
  crcErrLatch : Bool
  /-- `crc8_acc` (10_state.md R17). -/
  crc8Acc : Byte
  /-- `crc16_acc` (10_state.md R17). -/
  crc16Acc : U16
  /-- `rx_state` (10_state.md R18). -/
  rxState : RxState
  /-- `rx_len_lo` (10_state.md R19). -/
  rxLenLo : Byte
  /-- `rx_len` (10_state.md R20). -/
  rxLen : U16
  /-- `rx_count` (10_state.md R21). -/
  rxCount : U16
  /-- `rx_buf[0..505]` (10_state.md R22; a byte keeps its value until it is stored to, log 13). -/
  rxBuf : Vector Byte Config.maxPayload
  /-- `rx_crc_lo` (10_state.md R23). -/
  rxCrcLo : Byte
  /-- `lg_idx`, 3 bits (10_state.md R25). -/
  lgIdx : Fin Config.legacyCmdLen
  /-- `lg_win[0..6]` (10_state.md R26). -/
  lgWin : Vector Byte Config.legacyContentLen
  /-- `refused`, model bookkeeping (10_state.md R31). -/
  refused : Bool
  /-- The reason reported by the latest refused operation (60_exceptions.md R106). The model's own field (log 5). -/
  lastRefusal : Option RefuseReason
  /-- The output events emitted so far, oldest first (00_scope.md R10, 20_memory.md R42; log 7). -/
  events : List Event
  /-- The operations issued and not yet processed, oldest first (20_memory.md R42). The model's own field (log 4). -/
  pending : List Operation
  deriving DecidableEq, Repr

/-- The state right after reset of an instance with configuration `c` (70_reset_and_hazards.md R116). The registers that
R116 calls unspecified are zero (DESIGN CHOICE, log 3). -/
def State.resetFor (c : Config) : State where
  cfg := c
  crcErrLatch := false
  crc8Acc := Config.crc8Init
  crc16Acc := Config.crc16Init
  rxState := .awaitHeaderByte0
  rxLenLo := 0
  rxLen := 0
  rxCount := 0
  rxBuf := Vector.replicate Config.maxPayload 0
  rxCrcLo := 0
  lgIdx := 0
  lgWin := Vector.replicate Config.legacyContentLen 0
  refused := false
  lastRefusal := none
  events := []
  pending := []

/-- The machine right after reset: a v2 instance (DESIGN CHOICE, log 1) that does not clear the latch on a report
(DESIGN CHOICE, log 2). Every statement about reset is about `State.resetFor`, for all configurations. -/
def State.reset : State := State.resetFor ⟨.v2, false⟩

end Sys2Proof.Machine
end

