-- ==== Sys2Proof/Machine/Flags.lean ====
section
/-! DEFINITION. The block's only flag, the sticky checksum-error latch: how it is set and how it is cleared
(10_state.md R16). -/

namespace Sys2Proof.Machine

/-- Set the latch: a legacy CRC-8 mismatch (42_rx_legacy.md R84). -/
def setLatch (s : State) : State := { s with crcErrLatch := true }

/-- Clear the latch: CLEAR_CRC_ERR and RESET (44_control.md R98, R99). -/
def clearLatch (s : State) : State := { s with crcErrLatch := false }

/-- What emitting a legacy response does to the latch: it clears it exactly when `CLEAR_LATCH_ON_REPORT` is true
(43_tx_framer.md R95). -/
def reportLatch (s : State) : State := if s.cfg.clearLatchOnReport then clearLatch s else s

end Sys2Proof.Machine
end

