-- ==== Sys2Proof/Machine/Operands.lean ====
section
/-! DEFINITION. The operand forms of the block: a byte stands for itself, and two bytes make a 16-bit word with the low
byte first (00_scope.md R9, 20_memory.md R34, R35). -/

namespace Sys2Proof.Machine

/-- `lo(v) = v[7:0]` (00_scope.md R9). -/
def lo (v : U16) : Byte := v.extractLsb' 0 8

/-- `hi(v) = v[15:8]` (00_scope.md R9). -/
def hi (v : U16) : Byte := v.extractLsb' 8 8

/-- The word of two bytes on the wire, the low byte first: `zext_16(l) | (zext_16(h) << 8)` (20_memory.md R34, R35). -/
def le16 (l h : Byte) : U16 := l.setWidth 16 ||| (h.setWidth 16 <<< 8)

/-- The length of a byte sequence as the 16-bit length field holds it (43_tx_framer.md R91). -/
def lengthField (p : List Byte) : U16 := BitVec.ofNat 16 p.length

end Sys2Proof.Machine
end

