-- ==== Sys2Proof/Machine/Ops.lean ====
section
/-! DEFINITION. The primitives the operation rules are written in (00_scope.md R10): buffer reads and writes, emitting an
event, refusing an operation, taking the next operation.

The block has no exception, no trap entry and no trap return (60_exceptions.md R101, R110). What stands in their place
is `refuse`, the one shared effect of every refused operation (60_exceptions.md R106). -/

namespace Sys2Proof.Machine

/-- `BufWrite(rx_buf, i, v)` (00_scope.md R10): every other byte keeps what it held (10_state.md R22; DEDUCED where
93_implementation_defined.md row 2 leaves it open, log 13). `none`: there is no byte `i` (log 8). -/
def bufWrite (buf : Vector Byte Config.maxPayload) (i : U16) (v : Byte) : Option (Vector Byte Config.maxPayload) :=
  if h : i.toNat < Config.maxPayload then some (buf.set i.toNat v h) else none

/-- `rx_buf[0 .. n-1]`, empty for `n = 0` (00_scope.md R9, R10). `none`: the range leaves the buffer (log 8). -/
def bufSlice (buf : Vector Byte Config.maxPayload) (n : U16) : Option (List Byte) :=
  if n.toNat ≤ Config.maxPayload then some (buf.toList.take n.toNat) else none

/-- `BufWrite(lg_win, i, v)` where the window has a byte `i`; index 7, the trailer's, is not stored
(42_rx_legacy.md R83, R84). -/
def winWrite (win : Vector Byte Config.legacyContentLen) (i : Fin Config.legacyCmdLen) (v : Byte) :
    Vector Byte Config.legacyContentLen :=
  if h : i.val < Config.legacyContentLen then win.set i.val v h else win

/-- `emit E` (00_scope.md R10): append one event to the output. -/
def emit (e : Event) (s : State) : State := { s with events := s.events ++ [e] }

/-- `refuse(reason)` (00_scope.md R10, 60_exceptions.md R106): no block state changes, no event, the mark is set and the
reason reported (log 5). -/
def refuse (r : RefuseReason) (s : State) : State := { s with refused := true, lastRefusal := some r }

/-- `rx_state <- S` (00_scope.md R10). -/
def rxGoto (q : RxState) (s : State) : State := { s with rxState := q }

/-- The oldest operation not yet processed, and the state without it (20_memory.md R42). -/
def takeOperation (s : State) : Option (Operation × State) :=
  match s.pending with
  | [] => none
  | o :: rest => some (o, { s with pending := rest })

/-- The environment issues operations, after those already issued (20_memory.md R42, log 4). -/
def State.issue (os : List Operation) (s : State) : State := { s with pending := s.pending ++ os }

/-- The 3-bit code of a receive state, for an observer that reads it as a number (10_state.md R18). -/
def RxState.code : RxState → BitVec 3
  | .awaitHeaderByte0 => 0
  | .awaitHeaderByte1 => 1
  | .awaitLengthLow => 2
  | .awaitLengthHigh => 3
  | .awaitPayload => 4
  | .awaitCrcLow => 5
  | .awaitCrcHigh => 6

end Sys2Proof.Machine
end

