-- ==== Sys2Proof/Machine/Control.lean ====
section
/-! DEFINITION. The control operations CLEAR_CRC_ERR and RESET (44_control.md R98, R99). -/

namespace Sys2Proof.Machine

/-- CLEAR_CRC_ERR (44_control.md R98). -/
def execClearCrcErr (s : State) : Host.Outcome State Fault Refusal := .next (clearLatch s)

/-- The receive state of the instance's format back to its start: `rx_state <- H0` or `lg_idx <- 0`
(44_control.md R99). -/
def resetReceiver (s : State) : State :=
  match s.cfg.format with
  | .v2 => rxGoto .awaitHeaderByte0 s
  | .legacy => { s with lgIdx := 0 }

/-- RESET (44_control.md R99). The registers R99 leaves unchanged, the configuration and the `refused` mark stay. -/
def execReset (s : State) : Host.Outcome State Fault Refusal :=
  .next (resetReceiver { clearLatch s with crc8Acc := Config.crc8Init, crc16Acc := Config.crc16Init })

end Sys2Proof.Machine
end

