-- ==== Sys2Proof/Machine/Crc.lean ====
section
/-! DEFINITION. The CRC engine: the two pure functions (40_crc.md R58 to R61) and the meanings of the four stand-alone
operations CRC8_INIT, CRC8_BYTE, CRC16_INIT, CRC16_BYTE (40_crc.md R62 to R65). -/

namespace Sys2Proof.Machine

/-! ### CRC-8 -/

/-- One pass of the loop of 40_crc.md R58: bit 7 is tested before the shift. -/
def crc8Shift (a : Byte) : Byte := if a.getLsbD 7 then (a <<< 1) ^^^ Config.crc8Poly else a <<< 1

/-- `crc8_update` (40_crc.md R58). -/
def crc8Update (acc b : Byte) : Byte := crc8Shift^[8] (acc ^^^ b)

/-- `crc8` (40_crc.md R59). -/
def crc8 (buf : List Byte) : Byte := buf.foldl crc8Update Config.crc8Init

/-! ### CRC-16 -/

/-- One pass of the loop of 40_crc.md R60: bit 15 is tested before the shift. -/
def crc16Shift (a : U16) : U16 := if a.getLsbD 15 then (a <<< 1) ^^^ Config.crc16Poly else a <<< 1

/-- `crc16_update` (40_crc.md R60): the byte enters the top 8 bits. -/
def crc16Update (acc : U16) (b : Byte) : U16 := crc16Shift^[8] (acc ^^^ (b.setWidth 16 <<< 8))

/-- `crc16` (40_crc.md R61). -/
def crc16 (buf : List Byte) : U16 := buf.foldl crc16Update Config.crc16Init

/-- The CRC-16 of a v2 frame: over the two length bytes and then the payload, the header left out
(20_memory.md R36). -/
def frameCrc (len : U16) (payload : List Byte) : U16 := crc16 ([lo len, hi len] ++ payload)

/-! ### The stand-alone operations -/

/-- CRC8_INIT (40_crc.md R62). -/
def execCrc8Init (s : State) : Host.Outcome State Fault Refusal :=
  .next { s with crc8Acc := Config.crc8Init }

/-- CRC8_BYTE b (40_crc.md R63). -/
def execCrc8Byte (b : Byte) (s : State) : Host.Outcome State Fault Refusal :=
  .next { s with crc8Acc := crc8Update s.crc8Acc b }

/-- CRC16_INIT (40_crc.md R64). -/
def execCrc16Init (s : State) : Host.Outcome State Fault Refusal :=
  .next { s with crc16Acc := Config.crc16Init }

/-- CRC16_BYTE b (40_crc.md R65). -/
def execCrc16Byte (b : Byte) (s : State) : Host.Outcome State Fault Refusal :=
  .next { s with crc16Acc := crc16Update s.crc16Acc b }

end Sys2Proof.Machine
end

