-- ==== Sys2Proof/Machine/Framer.lean ====
section
/-! DEFINITION. The wire frames (30_encoding.md R44 to R47) and the framer: the meanings of TX_SEND_V2 and
TX_SEND_LEGACY (43_tx_framer.md R91, R94, R95). -/

namespace Sys2Proof.Machine

/-! ### Wire frames (30_encoding.md R44 to R47) -/

/-- The v2 frame of a payload (30_encoding.md R44). -/
def v2Frame (p : List Byte) : List Byte :=
  [Config.hdr0, Config.hdr1, lo (lengthField p), hi (lengthField p)] ++ p
    ++ [lo (frameCrc (lengthField p) p), hi (frameCrc (lengthField p) p)]

/-- Byte `i` of a frame (a frame too short has none, and no rule looks there: the length is checked first). -/
def frameByte (f : List Byte) (i : Nat) : Byte := f.getD i 0

/-- The length field of a byte sequence read as a v2 frame (30_encoding.md R45). -/
def frameLength (f : List Byte) : Nat := (le16 (frameByte f 2) (frameByte f 3)).toNat

/-- A well-formed v2 frame, judged on the bytes alone (30_encoding.md R45). -/
def isV2Frame (f : List Byte) : Bool :=
  decide (f.length = frameLength f + 6)
    && decide (frameByte f 0 = Config.hdr0) && decide (frameByte f 1 = Config.hdr1)
    && decide (Config.minPayload ≤ frameLength f) && decide (frameLength f ≤ Config.maxPayload)
    && decide (le16 (frameByte f (4 + frameLength f)) (frameByte f (5 + frameLength f))
        = crc16 ((f.drop 2).take (2 + frameLength f)))

/-- The legacy command frame of 7 content bytes: a CRC-8 trailer over them (30_encoding.md R46). -/
def legacyCommandFrame (content : List Byte) : List Byte := content ++ [crc8 content]

/-- The legacy response frame of a 23-byte body: a CRC-8 trailer over bytes 0 to 22 (30_encoding.md R47). -/
def legacyResponseFrame (body : List Byte) : List Byte := body ++ [crc8 body]

/-- The content of a legacy command by its fields (30_encoding.md R46). -/
structure CommandContent where
  /-- Byte 0, the command id. -/
  id : Byte
  /-- Byte 1, the command type or code. -/
  code : Byte
  /-- Bytes 2 to 6, `p0 .. p4`. -/
  params : Vector Byte (Config.legacyContentLen - 2)
  deriving DecidableEq, Repr

/-- The 7 content bytes of a legacy command (30_encoding.md R46). -/
def commandBytes (c : CommandContent) : List Byte := [c.id, c.code] ++ c.params.toList

/-- The body of a legacy response by its fields (30_encoding.md R47). The order of the bytes inside a 4-byte field is
left open (20_memory.md R37), so a field is its 4 bytes as they stand on the wire. -/
structure ResponseBody where
  /-- Byte 0, the echoed command id. -/
  id : Byte
  /-- Byte 1, the status byte. -/
  status : Byte
  /-- Bytes 2 to 5. -/
  position1 : Vector Byte 4
  /-- Bytes 6 to 9. -/
  position2 : Vector Byte 4
  /-- Bytes 10 to 13. -/
  position3 : Vector Byte 4
  /-- Bytes 14 to 17, the fourth 4-byte field (90_conflicts.md C1). -/
  fourth : Vector Byte 4
  /-- Byte 18, the joystick or button byte. -/
  button : Byte
  /-- Bytes 19 to 22, reserved. -/
  reserved : Vector Byte 4
  deriving DecidableEq, Repr

/-- The 23 body bytes of a legacy response (30_encoding.md R47). -/
def responseBytes (r : ResponseBody) : List Byte :=
  [r.id, r.status] ++ r.position1.toList ++ r.position2.toList ++ r.position3.toList ++ r.fourth.toList
    ++ [r.button] ++ r.reserved.toList

/-! ### The operations -/

/-- TX_SEND_V2 p (43_tx_framer.md R91). -/
def execTxSendV2 (p : List Byte) (s : State) : Host.Outcome State Fault Refusal :=
  if s.cfg.format ≠ .v2 then .next (refuse .wrongFormat s)
  else if p.length < Config.minPayload ∨ p.length > Config.maxPayload then .next (refuse .txLength s)
  else .next (emit (.txBytes (v2Frame p)) s)

/-- TX_SEND_LEGACY body (43_tx_framer.md R94, R95). -/
def execTxSendLegacy (body : List Byte) (s : State) : Host.Outcome State Fault Refusal :=
  if s.cfg.format ≠ .legacy then .next (refuse .wrongFormat s)
  else if body.length ≠ Config.legacyRspLen - 1 then .next (refuse .txLength s)
  else .next (reportLatch (emit (.txBytes (legacyResponseFrame body)) s))

end Sys2Proof.Machine
end

