-- ==== Sys2Proof/Machine/Rx.lean ====
section
/-! DEFINITION. RX_BYTE: the seven-state v2 reassembler (41_rx_v2.md R66 to R72), the legacy reassembler
(42_rx_legacy.md R82 to R84), and the choice between them by FORMAT (30_encoding.md R54). In each transition all reads
see the values from before the operation (00_scope.md R10). -/

namespace Sys2Proof.Machine

/-! ### v2 (41_rx_v2.md) -/

/-- Whether a v2 length is accepted (41_rx_v2.md R69): neither 0 nor greater than 506. -/
def lengthAccepted (len : U16) : Bool := decide (Config.minPayload ≤ len.toNat) && decide (len.toNat ≤ Config.maxPayload)

/-- AWAIT_HEADER_BYTE0 (41_rx_v2.md R67). -/
def rxHeader0 (b : Byte) (s : State) : State :=
  if b = Config.hdr0 then rxGoto .awaitHeaderByte1 s else rxGoto .awaitHeaderByte0 s

/-- AWAIT_HEADER_BYTE1 (41_rx_v2.md R67): a repeated first header byte keeps the machine here. -/
def rxHeader1 (b : Byte) (s : State) : State :=
  if b = Config.hdr1 then rxGoto .awaitLengthLow s
  else if b = Config.hdr0 then rxGoto .awaitHeaderByte1 s
  else rxGoto .awaitHeaderByte0 s

/-- AWAIT_LENGTH_LOW (41_rx_v2.md R68). -/
def rxLengthLow (b : Byte) (s : State) : State := rxGoto .awaitLengthHigh { s with rxLenLo := b }

/-- AWAIT_LENGTH_HIGH (41_rx_v2.md R69). -/
def rxLengthHigh (b : Byte) (s : State) : State :=
  if lengthAccepted (le16 s.rxLenLo b) then
    rxGoto .awaitPayload { s with rxLen := le16 s.rxLenLo b, rxCount := 0 }
  else rxGoto .awaitHeaderByte0 s

/-- AWAIT_PAYLOAD (41_rx_v2.md R70). The bytes of `rx_buf` beyond the count keep what they held (DEDUCED, log 13). -/
def rxPayload (b : Byte) (s : State) : Host.Outcome State Fault Refusal :=
  match bufWrite s.rxBuf s.rxCount b with
  | none => .fault .rxBufOverrun
  | some buf =>
    .next (rxGoto (if s.rxCount + 1 = s.rxLen then .awaitCrcLow else .awaitPayload)
      { s with rxBuf := buf, rxCount := s.rxCount + 1 })

/-- AWAIT_CRC_LOW (41_rx_v2.md R71). -/
def rxCrcLow (b : Byte) (s : State) : State := rxGoto .awaitCrcHigh { s with rxCrcLo := b }

/-- AWAIT_CRC_HIGH (41_rx_v2.md R72): deliver or drop, and in both cases return to header scanning. `rx_buf` keeps what
it held, after a dropped frame too (DEDUCED, log 13). -/
def rxCrcHigh (b : Byte) (s : State) : Host.Outcome State Fault Refusal :=
  match bufSlice s.rxBuf s.rxLen with
  | none => .fault .rxBufOverrun
  | some payload =>
    if le16 s.rxCrcLo b = frameCrc s.rxLen payload then
      .next (rxGoto .awaitHeaderByte0 (emit (.rxFrameV2 payload) s))
    else .next (rxGoto .awaitHeaderByte0 s)

/-- RX_BYTE b in a v2 instance (41_rx_v2.md R66). -/
def rxByteV2 (b : Byte) (s : State) : Host.Outcome State Fault Refusal :=
  match s.rxState with
  | .awaitHeaderByte0 => .next (rxHeader0 b s)
  | .awaitHeaderByte1 => .next (rxHeader1 b s)
  | .awaitLengthLow => .next (rxLengthLow b s)
  | .awaitLengthHigh => .next (rxLengthHigh b s)
  | .awaitPayload => rxPayload b s
  | .awaitCrcLow => .next (rxCrcLow b s)
  | .awaitCrcHigh => rxCrcHigh b s

/-! ### legacy (42_rx_legacy.md) -/

/-- AWAIT_BYTE[i] for i from 0 to 6 (42_rx_legacy.md R83). -/
def rxWindowByte (b : Byte) (s : State) : State :=
  { s with lgWin := winWrite s.lgWin s.lgIdx b, lgIdx := s.lgIdx + 1 }

/-- AWAIT_BYTE[7] (42_rx_legacy.md R84): the trailer is compared as it arrives and not stored. -/
def rxWindowTrailer (b : Byte) (s : State) : State :=
  if b = crc8 s.lgWin.toList then { emit (.rxCmdLegacy s.lgWin.toList) s with lgIdx := 0 }
  else { setLatch s with lgIdx := 0 }

/-- RX_BYTE b in a legacy instance (42_rx_legacy.md R82). -/
def rxByteLegacy (b : Byte) (s : State) : State :=
  if s.lgIdx.val < Config.legacyContentLen then rxWindowByte b s else rxWindowTrailer b s

/-! ### the operation -/

/-- RX_BYTE b (41_rx_v2.md R66, 42_rx_legacy.md R82): FORMAT selects the rule (30_encoding.md R54). -/
def execRxByte (b : Byte) (s : State) : Host.Outcome State Fault Refusal :=
  match s.cfg.format with
  | .v2 => rxByteV2 b s
  | .legacy => .next (rxByteLegacy b s)

/-! ### Error conditions by name (60_exceptions.md R102, R103)

The hardware records no cause code: these names are the spec's own, for diagnostics, and no field of State holds one. -/

/-- The conditions of 60_exceptions.md R103. -/
inductive ErrorCondition
  | v2BadHeader
  | v2BadLength
  | v2CrcMismatch
  | legacyCrcMismatch
  deriving DecidableEq, Repr

/-- The classes of 60_exceptions.md R102 that belong to the block. -/
inductive ErrorClass
  | framing
  | integrity
  deriving DecidableEq, Repr

/-- The class column of 60_exceptions.md R103. -/
def errorClassOf : ErrorCondition → ErrorClass
  | .v2BadHeader => .framing
  | .v2BadLength => .framing
  | .v2CrcMismatch => .integrity
  | .legacyCrcMismatch => .integrity

/-- The condition RX_BYTE b meets in a v2 instance, at most one (60_exceptions.md R103, R109). -/
def errorConditionV2 (b : Byte) (s : State) : Option ErrorCondition :=
  match s.rxState with
  | .awaitHeaderByte0 => if b = Config.hdr0 then none else some .v2BadHeader
  | .awaitHeaderByte1 => if b = Config.hdr1 ∨ b = Config.hdr0 then none else some .v2BadHeader
  | .awaitLengthLow => none
  | .awaitLengthHigh => if lengthAccepted (le16 s.rxLenLo b) then none else some .v2BadLength
  | .awaitPayload => none
  | .awaitCrcLow => none
  | .awaitCrcHigh =>
    match bufSlice s.rxBuf s.rxLen with
    | none => none
    | some payload => if le16 s.rxCrcLo b = frameCrc s.rxLen payload then none else some .v2CrcMismatch

/-- The condition RX_BYTE b meets, at most one (60_exceptions.md R103, R109). -/
def errorCondition (b : Byte) (s : State) : Option ErrorCondition :=
  match s.cfg.format with
  | .v2 => errorConditionV2 b s
  | .legacy => if s.lgIdx.val < Config.legacyContentLen ∨ b = crc8 s.lgWin.toList then none else some .legacyCrcMismatch

end Sys2Proof.Machine
end

