-- ==== Sys2Proof/Machine/Dispatch.lean ====
section
/-! DEFINITION. Which meaning each operation has: one arm a constructor of Instr. -/

namespace Sys2Proof.Machine

def exec (i : Instr) (s : State) : Host.Outcome State Fault Refusal :=
  match i with
  | .rxByte b => Sys2Proof.Machine.execRxByte b s
  | .txSendV2 data => Sys2Proof.Machine.execTxSendV2 data s
  | .txSendLegacy data => Sys2Proof.Machine.execTxSendLegacy data s
  | .crc8Init => Sys2Proof.Machine.execCrc8Init s
  | .crc8Byte b => Sys2Proof.Machine.execCrc8Byte b s
  | .crc16Init => Sys2Proof.Machine.execCrc16Init s
  | .crc16Byte b => Sys2Proof.Machine.execCrc16Byte b s
  | .clearCrcErr => Sys2Proof.Machine.execClearCrcErr s
  | .reset => Sys2Proof.Machine.execReset s

end Sys2Proof.Machine
end

