-- ==== Sys2Proof/Machine/Step.lean ====
section
/-! DEFINITION. One step: the block takes the oldest operation issued to it, decodes it, and runs it or refuses it
(20_memory.md R42, 30_encoding.md R57, 60_exceptions.md R106). -/

namespace Sys2Proof.Machine

/-- One step. With no operation issued the block waits and nothing changes (log 4). A refused operation sets the mark
and changes nothing else (60_exceptions.md R106). -/
def step (s : State) : Host.Outcome State Fault Refusal :=
  match takeOperation s with
  | none => .next s
  | some (o, t) =>
    match decode t.cfg.format o with
    | .error r => .next (refuse r t)
    | .ok i => exec i t

/-- `s` with the operation of the table's bits first among those issued, in an instance that may be given it (log 6). -/
def State.withFetchWord (s : State) (nbits w : Nat) : State :=
  { s with
    cfg := { s.cfg with format := tableFormat (tableOperation nbits w) s.cfg.format }
    pending := tableOperation nbits w :: s.pending }

end Sys2Proof.Machine
end

