-- ==== Sys2Proof/Machine/Asm.lean ====
section
/-! DEFINITION. The assembler syntax and the pseudo-operations (30_encoding.md R56): lines as data, the operations a line
stands for, a line written out, and a line read in. Characters are a list, so that reading is structural recursion.
What R56 leaves open of the text is fixed in log 10. -/

namespace Sys2Proof.Machine

/-- One line of assembly: an operation, or a pseudo-operation (30_encoding.md R56). -/
inductive AsmLine
  | op (i : Instr)
  | rxBytes (bs : List Byte)
  | rxV2 (p : List Byte)
  | rxLegacy (c : List Byte)
  | crc8Buf (bs : List Byte)
  | crc16Buf (bs : List Byte)
  deriving DecidableEq, Repr

/-- The operations a line stands for, in order (30_encoding.md R56). `none`: there is no well-formed frame of that
payload, or no 7-byte command content. -/
def AsmLine.expand : AsmLine → Option (List Instr)
  | .op i => some [i]
  | .rxBytes bs => some (bs.map .rxByte)
  | .rxV2 p =>
    if Config.minPayload ≤ p.length ∧ p.length ≤ Config.maxPayload then some ((v2Frame p).map .rxByte) else none
  | .rxLegacy c =>
    if c.length = Config.legacyContentLen then some ((legacyCommandFrame c).map .rxByte) else none
  | .crc8Buf bs => some (.crc8Init :: bs.map .crc8Byte)
  | .crc16Buf bs => some (.crc16Init :: bs.map .crc16Byte)

/-! ### Writing a line -/

/-- One hexadecimal digit. -/
def hexDigit (n : Nat) : Char := "0123456789ABCDEF".toList.getD n '0'

/-- `0xNN` (30_encoding.md R56). -/
def byteText (b : Byte) : List Char := ['0', 'x', hexDigit (b.toNat / 16), hexDigit (b.toNat % 16)]

/-- The bytes after the first of a bracketed list, each after a comma. -/
def moreBytesText : List Byte → List Char
  | [] => []
  | b :: bs => ',' :: ' ' :: byteText b ++ moreBytesText bs

/-- `[0xb0, 0xb1, ...]` (30_encoding.md R56). -/
def bytesText : List Byte → List Char
  | [] => ['[', ']']
  | b :: bs => '[' :: byteText b ++ moreBytesText bs ++ [']']

/-- An operation's line (30_encoding.md R56). -/
def instrText : Instr → List Char
  | .rxByte b => "RX_BYTE ".toList ++ byteText b
  | .txSendV2 data => "TX_SEND_V2 ".toList ++ bytesText data
  | .txSendLegacy data => "TX_SEND_LEGACY ".toList ++ bytesText data
  | .crc8Init => "CRC8_INIT".toList
  | .crc8Byte b => "CRC8_BYTE ".toList ++ byteText b
  | .crc16Init => "CRC16_INIT".toList
  | .crc16Byte b => "CRC16_BYTE ".toList ++ byteText b
  | .clearCrcErr => "CLEAR_CRC_ERR".toList
  | .reset => "RESET".toList

/-- A line written out (30_encoding.md R56). -/
def lineText : AsmLine → List Char
  | .op i => instrText i
  | .rxBytes bs => "RX_BYTES ".toList ++ bytesText bs
  | .rxV2 p => "RX_V2 ".toList ++ bytesText p
  | .rxLegacy c => "RX_LEGACY ".toList ++ bytesText c
  | .crc8Buf bs => "CRC8_BUF ".toList ++ bytesText bs
  | .crc16Buf bs => "CRC16_BUF ".toList ++ bytesText bs

/-! ### Reading a line -/

/-- The tokens of a line. -/
inductive Token
  | word (cs : List Char)
  | openList
  | closeList
  | comma
  deriving DecidableEq, Repr

/-- The word read so far (its letters last first), if any. -/
def flushWord (acc : List Char) : List Token := if acc = [] then [] else [.word acc.reverse]

/-- The tokens of a line, up to the comment that `;` starts. -/
def tokens : List Char → List Char → List Token
  | acc, [] => flushWord acc
  | acc, c :: cs =>
    if c = ';' then flushWord acc
    else if c = ' ' ∨ c = '\t' ∨ c = '\r' then flushWord acc ++ tokens [] cs
    else if c = '[' then flushWord acc ++ .openList :: tokens [] cs
    else if c = ']' then flushWord acc ++ .closeList :: tokens [] cs
    else if c = ',' then flushWord acc ++ .comma :: tokens [] cs
    else tokens (c :: acc) cs

/-- The value of a hexadecimal digit, capital or small. -/
def digitValue (c : Char) : Option Nat :=
  match "0123456789ABCDEF".toList.findIdx? (· == c) with
  | some n => some n
  | none => "0123456789abcdef".toList.findIdx? (· == c)

/-- The byte `0xNN` spells. -/
def wordByte : List Char → Option Byte
  | ['0', 'x', h, l] =>
    match digitValue h, digitValue l with
    | some m, some n => some (BitVec.ofNat 8 (16 * m + n))
    | _, _ => none
  | _ => none

/-- The bytes of a list that holds at least one, from after its bracket to the end of the line. -/
def listTail : List Token → Option (List Byte)
  | [.word w, .closeList] => (wordByte w).map fun b => [b]
  | .word w :: .comma :: rest =>
    match wordByte w, listTail rest with
    | some b, some bs => some (b :: bs)
    | _, _ => none
  | _ => none

/-- A byte operand. -/
def byteOperand : List Token → Option Byte
  | [.word w] => wordByte w
  | _ => none

/-- A bracketed list operand. -/
def listOperand : List Token → Option (List Byte)
  | [.openList, .closeList] => some []
  | .openList :: rest => listTail rest
  | _ => none

/-- A line whose mnemonic takes no operand. -/
def noOperand (i : Instr) : List Token → Option AsmLine
  | [] => some (.op i)
  | _ => none

/-- The line of a mnemonic and the tokens after it. -/
def readMnemonic (m : List Char) (rest : List Token) : Option AsmLine :=
  if m = "RX_BYTE".toList then (byteOperand rest).map fun b => .op (.rxByte b)
  else if m = "TX_SEND_V2".toList then (listOperand rest).map fun p => .op (.txSendV2 p)
  else if m = "TX_SEND_LEGACY".toList then (listOperand rest).map fun p => .op (.txSendLegacy p)
  else if m = "CRC8_INIT".toList then noOperand .crc8Init rest
  else if m = "CRC8_BYTE".toList then (byteOperand rest).map fun b => .op (.crc8Byte b)
  else if m = "CRC16_INIT".toList then noOperand .crc16Init rest
  else if m = "CRC16_BYTE".toList then (byteOperand rest).map fun b => .op (.crc16Byte b)
  else if m = "CLEAR_CRC_ERR".toList then noOperand .clearCrcErr rest
  else if m = "RESET".toList then noOperand .reset rest
  else if m = "RX_BYTES".toList then (listOperand rest).map .rxBytes
  else if m = "RX_V2".toList then (listOperand rest).map .rxV2
  else if m = "RX_LEGACY".toList then (listOperand rest).map .rxLegacy
  else if m = "CRC8_BUF".toList then (listOperand rest).map .crc8Buf
  else if m = "CRC16_BUF".toList then (listOperand rest).map .crc16Buf
  else none

/-- A line of text: `some none` for a line that holds no operation (blank or a comment), `none` for no line of the
syntax. -/
def readLine (text : List Char) : Option (Option AsmLine) :=
  match tokens [] text with
  | [] => some none
  | .word m :: rest => (readMnemonic m rest).map some
  | _ => none

/-- The operations of a line of text, in order (30_encoding.md R56). -/
def assembleLine (text : List Char) : Option (List Instr) :=
  match readLine text with
  | none => none
  | some none => some []
  | some (some l) => l.expand

/-- The operations of a program, one line after another (30_encoding.md R56). -/
def assemble : List (List Char) → Option (List Instr)
  | [] => some []
  | t :: ts =>
    match assembleLine t, assemble ts with
    | some is, some js => some (is ++ js)
    | _, _ => none

end Sys2Proof.Machine
end

