-- ==== Sys2Proof/Machine/Run.lean ====
section
/-! DEFINITION. Runs: a sequence of decoded operations, a stream of received bytes, and a finite sequence of issued
operations run by steps (60_exceptions.md R115). -/

namespace Sys2Proof.Machine

/-- Operations one after another, each to completion, in order (20_memory.md R42). -/
def execAll : List Instr → State → Host.Outcome State Fault Refusal
  | [], s => .next s
  | i :: is, s =>
    match exec i s with
    | .next t => execAll is t
    | .fault r => .fault r
    | .refused r => .refused r

/-- Bytes of the input stream, in order: one RX_BYTE each (20_memory.md R33, the RX_BYTES of 30_encoding.md R56). -/
def feed (bs : List Byte) (s : State) : Host.Outcome State Fault Refusal := execAll (bs.map .rxByte) s

/-- A run: the operations issued, then one step for each (60_exceptions.md R115). -/
def runOps (os : List Operation) (s : State) : Host.Outcome State Fault Refusal :=
  Host.Core.run Sys2Proof.core os.length (s.issue os)

end Sys2Proof.Machine
end

