-- ==== Sys2Proof/Safety.lean ====
section
/-! DEFINITION. What claims about the block speak of: the observation of a run (60_exceptions.md R107, R115), the
invariants of its states (10_state.md R16, R20, R21, R24), and the shape of what it emits (30_encoding.md R55). -/

namespace Sys2Proof.Machine

/-! ### Observation -/

/-- What is observed of a run (60_exceptions.md R115). -/
structure Observation where
  events : List Event
  crcErrLatch : Bool
  crc8Acc : Byte
  crc16Acc : U16
  refused : Bool
  deriving DecidableEq, Repr

/-- The observation of a run that ended in `s`. The receive state is no part of it (60_exceptions.md R115). -/
def State.observe (s : State) : Observation where
  events := s.events
  crcErrLatch := s.crcErrLatch
  crc8Acc := s.crc8Acc
  crc16Acc := s.crc16Acc
  refused := s.refused

/-- A run is given a meaning only where no operation of it was refused (60_exceptions.md R107). -/
def Observation.hasMeaning (o : Observation) : Bool := !o.refused

/-! ### Invariants -/

/-- The state of the v2 reassembler fits its counters: in AWAIT_PAYLOAD the length is accepted and the count below it,
in the CRC states the length is accepted and the count has reached it (10_state.md R20, R21, R24; log 11). -/
def RxInv (s : State) : Prop :=
  (s.rxState = .awaitPayload →
    Config.minPayload ≤ s.rxLen.toNat ∧ s.rxLen.toNat ≤ Config.maxPayload ∧ s.rxCount.toNat < s.rxLen.toNat) ∧
  (s.rxState = .awaitCrcLow ∨ s.rxState = .awaitCrcHigh →
    Config.minPayload ≤ s.rxLen.toNat ∧ s.rxLen.toNat ≤ Config.maxPayload ∧ s.rxCount = s.rxLen)

/-- The invariant of the machine. In a v2 instance the reassembler fits its counters (10_state.md R24) and the latch is
never set (10_state.md R16), and the mark is set exactly when a reason has been reported (10_state.md R31,
60_exceptions.md R106; `lastRefusal` is the model's own, log 5). -/
structure Inv (s : State) : Prop where
  rx : s.cfg.format = .v2 → RxInv s
  latch : s.cfg.format = .v2 → s.crcErrLatch = false
  mark : s.refused = s.lastRefusal.isSome

/-- An event an instance built for `f` may emit (30_encoding.md R55, 43_tx_framer.md R91, R94): a v2 payload of 1 to 506
bytes, 7 bytes of a legacy command, a well-formed v2 frame of 7 to 512 bytes, or a 24-byte legacy response with its
CRC-8. -/
def Event.okFor (f : Format) : Event → Prop
  | .rxFrameV2 p => f = .v2 ∧ Config.minPayload ≤ p.length ∧ p.length ≤ Config.maxPayload
  | .rxCmdLegacy c => f = .legacy ∧ c.length = Config.legacyContentLen
  | .txBytes b =>
    (f = .v2 → isV2Frame b = true ∧ Config.minPayload + 6 ≤ b.length ∧ b.length ≤ Config.maxFrame) ∧
    (f = .legacy → b.length = Config.legacyRspLen ∧ b.getLast? = some (crc8 b.dropLast))

/-! ### The registers the spec leaves unspecified at reset -/

/-- Values for the registers that 70_reset_and_hazards.md R116 calls unspecified. -/
structure Unspecified where
  rxLenLo : Byte
  rxLen : U16
  rxCount : U16
  rxBuf : Vector Byte Config.maxPayload
  rxCrcLo : Byte
  lgWin : Vector Byte Config.legacyContentLen
  deriving DecidableEq, Repr

/-- `s` with other values in those registers (70_reset_and_hazards.md R118). -/
def State.withUnspecified (u : Unspecified) (s : State) : State :=
  { s with
    rxLenLo := u.rxLenLo
    rxLen := u.rxLen
    rxCount := u.rxCount
    rxBuf := u.rxBuf
    rxCrcLo := u.rxCrcLo
    lgWin := u.lgWin }

/-- The values a state holds in those registers. -/
def State.unspecified (s : State) : Unspecified where
  rxLenLo := s.rxLenLo
  rxLen := s.rxLen
  rxCount := s.rxCount
  rxBuf := s.rxBuf
  rxCrcLo := s.rxCrcLo
  lgWin := s.lgWin

/-- Two states equal but for those of the registers that nothing has written since reset, or since the frame or window
in progress began, and that the present receive state therefore may not read (10_state.md R19 to R23, R26). -/
structure AgreeOnWritten (s t : State) : Prop where
  rest : t = s.withUnspecified t.unspecified
  lenLo : s.cfg.format = .v2 → s.rxState = .awaitLengthHigh → t.rxLenLo = s.rxLenLo
  frame : s.cfg.format = .v2 → s.rxState = .awaitPayload ∨ s.rxState = .awaitCrcLow ∨ s.rxState = .awaitCrcHigh →
    t.rxLen = s.rxLen ∧ t.rxCount = s.rxCount ∧ ∀ i : Nat, i < s.rxCount.toNat → t.rxBuf[i]? = s.rxBuf[i]?
  crcLo : s.cfg.format = .v2 → s.rxState = .awaitCrcHigh → t.rxCrcLo = s.rxCrcLo
  window : s.cfg.format = .legacy → ∀ i : Nat, i < s.lgIdx.val → t.lgWin[i]? = s.lgWin[i]?

/-- What a run shows: the observation of its last state, or nothing if it stopped. -/
def observed : Host.Outcome State Fault Refusal → Option Observation
  | .next s => some s.observe
  | .fault _ => none
  | .refused _ => none

/-! ### Vocabulary of the claims -/

/-- Whether the bytes after the content of a legacy window are its trailer (42_rx_legacy.md R84). -/
def trailerMatches (w : List Byte) : Bool :=
  w.drop Config.legacyContentLen == [crc8 (w.take Config.legacyContentLen)]

/-- The legacy windows of a stream of whole windows that are delivered, in order (42_rx_legacy.md R84, R85). -/
def deliveredWindows (ws : List (List Byte)) : List Event :=
  (ws.filter trailerMatches).map fun w => .rxCmdLegacy (w.take Config.legacyContentLen)

/-- Whether some window of the stream has a wrong trailer (42_rx_legacy.md R84). -/
def someMismatch (ws : List (List Byte)) : Bool := ws.any fun w => !trailerMatches w

/-- `p` with bit `k` of byte `i` flipped. -/
def flipBit (p : List Byte) (i k : Nat) : List Byte := p.modify i fun b => b ^^^ BitVec.twoPow 8 k

/-- A v2 frame's bytes with the header, length and CRC of payload `p` around the payload `q`. -/
def v2FrameWithCrcOf (p q : List Byte) : List Byte :=
  [Config.hdr0, Config.hdr1, lo (lengthField p), hi (lengthField p)] ++ q
    ++ [lo (frameCrc (lengthField p) p), hi (frameCrc (lengthField p) p)]

end Sys2Proof.Machine
end

