-- ==== Sys2Proof/Certificates/Slice0/Obligations.lean ====
section
/-! DEFINITION. The statements for the provers, each a Prop, in the order of the spec's files. A docstring names the rule
a statement formalises and, where it rests on a choice of the model, the log entry. -/

open Sys2Proof Sys2Proof.Machine

/-! ### Encoding, decoding and stepping (30_encoding.md, 60_exceptions.md) -/

/-- Words written out from 30_encoding.md R50 and R51 (and the table of 95_test_vectors.md 2.7) decode to the operations
they spell, or are refused by the reason named there. -/
def Obligations.WrittenWordsDecode : Prop :=
  decode .v2 ⟨0x10AA, none⟩ = .ok (.rxByte 0xAA) ∧
  decode .legacy ⟨0x10AA, none⟩ = .ok (.rxByte 0xAA) ∧
  decode .v2 ⟨0x2000, some [1, 2, 3]⟩ = .ok (.txSendV2 [1, 2, 3]) ∧
  decode .legacy ⟨0x3000, some (List.replicate 23 0)⟩ = .ok (.txSendLegacy (List.replicate 23 0)) ∧
  decode .v2 ⟨0x4000, none⟩ = .ok .crc8Init ∧
  decode .legacy ⟨0x50FF, none⟩ = .ok (.crc8Byte 0xFF) ∧
  decode .legacy ⟨0x6000, none⟩ = .ok .crc16Init ∧
  decode .v2 ⟨0x70FF, none⟩ = .ok (.crc16Byte 0xFF) ∧
  decode .v2 ⟨0x8000, none⟩ = .ok .clearCrcErr ∧
  decode .v2 ⟨0xF000, none⟩ = .ok .reset ∧
  decode .v2 ⟨0x9100, none⟩ = .error .nonzeroZ ∧
  decode .v2 ⟨0xE000, none⟩ = .error .reservedOp ∧
  decode .v2 ⟨0x8001, some [0]⟩ = .error .nonzeroImm ∧
  decode .legacy ⟨0x2000, none⟩ = .error .dataMismatch ∧
  decode .v2 ⟨0x3000, some (List.replicate 23 0)⟩ = .error .wrongFormat ∧
  decode .legacy ⟨0x3000, some (List.replicate 24 0)⟩ = .error .txLength

/-- Decoding the encoding of a well-formed operation gives it back, with every operand. -/
def Obligations.DecodeOfEncode : Prop :=
  ∀ (f : Format) (i : Instr), i.wellFormed f = true → decode f (encode i) = .ok i

/-- Whatever decodes is the encoding of the operation it decodes to, and that operation is well-formed: no two raw
operations decode to one, and no ill-formed one is let through. -/
def Obligations.EncodeOfDecode : Prop :=
  ∀ (f : Format) (o : Operation) (i : Instr), decode f o = .ok i → encode i = o ∧ i.wellFormed f = true

/-- 30_encoding.md R57, the whole decoder in plain arithmetic on the word: the checks in their order, and the operation
where none fails. -/
def Obligations.DecoderChecksInOrder : Prop :=
  ∀ (f : Format) (o : Operation),
    let op := o.word.toNat / 4096
    let z := o.word.toNat / 256 % 16
    let imm := o.word.toNat % 256
    let data := o.data.getD []
    decode f o =
      if z ≠ 0 then .error .nonzeroZ
      else if op = 0 ∨ (9 ≤ op ∧ op ≤ 14) then .error .reservedOp
      else if op ≠ 1 ∧ op ≠ 5 ∧ op ≠ 7 ∧ imm ≠ 0 then .error .nonzeroImm
      else if (o.data = none ∧ (op = 2 ∨ op = 3)) ∨ (o.data ≠ none ∧ op ≠ 2 ∧ op ≠ 3) then .error .dataMismatch
      else if (op = 2 ∧ f = .legacy) ∨ (op = 3 ∧ f = .v2) then .error .wrongFormat
      else if (op = 2 ∧ (data.length < 1 ∨ 506 < data.length)) ∨ (op = 3 ∧ data.length ≠ 23) then .error .txLength
      else if op = 1 then .ok (.rxByte (BitVec.ofNat 8 imm))
      else if op = 2 then .ok (.txSendV2 data)
      else if op = 3 then .ok (.txSendLegacy data)
      else if op = 4 then .ok .crc8Init
      else if op = 5 then .ok (.crc8Byte (BitVec.ofNat 8 imm))
      else if op = 6 then .ok .crc16Init
      else if op = 7 then .ok (.crc16Byte (BitVec.ofNat 8 imm))
      else if op = 8 then .ok .clearCrcErr
      else .ok .reset

/-- A step runs the operation it decodes, on the state with that operation taken from the queue, and with no operation
issued it changes nothing. The queue is the model's own (log 4). -/
def Obligations.StepRunsTheDecodedOperation : Prop :=
  (∀ (s : State) (o : Operation) (rest : List Operation) (i : Instr),
    s.pending = o :: rest → decode s.cfg.format o = .ok i → step s = exec i { s with pending := rest }) ∧
  (∀ s : State, s.pending = [] → step s = .next s)

/-- A step on an operation the decoder refuses changes no block state and emits no event: it sets the mark and reports
the reason (60_exceptions.md R106; the field that holds the reason is the model's own, log 5). -/
def Obligations.RefusedOperationOnlySetsTheMark : Prop :=
  ∀ (s : State) (o : Operation) (rest : List Operation) (r : RefuseReason),
    s.pending = o :: rest → decode s.cfg.format o = .error r →
      step s = .next { s with pending := rest, refused := true, lastRefusal := some r }

/-- Operations are processed one at a time, to completion, in the order they arrive (20_memory.md R42): issuing the
encodings of well-formed operations and stepping once for each is running the operations in order. -/
def Obligations.StepsRunOperationsInOrder : Prop :=
  ∀ (s : State) (is : List Instr), s.pending = [] → (∀ i ∈ is, i.wellFormed s.cfg.format = true) →
    runOps (is.map encode) s = execAll is s

/-- 30_encoding.md R56, with the reading of log 10: a line of assembly written out reads back as itself, and the
pseudo-operations expand as their table says. -/
def Obligations.AssemblyReadsBackAndExpands : Prop :=
  (∀ l : AsmLine, readLine (lineText l) = some (some l)) ∧
  (∀ i : Instr, (AsmLine.op i).expand = some [i]) ∧
  (∀ bs : List Byte, (AsmLine.rxBytes bs).expand = some (bs.map .rxByte)) ∧
  (∀ p : List Byte, 1 ≤ p.length → p.length ≤ 506 → (AsmLine.rxV2 p).expand = some ((v2Frame p).map .rxByte)) ∧
  (∀ c : List Byte, c.length = 7 → (AsmLine.rxLegacy c).expand = some ((c ++ [crc8 c]).map .rxByte)) ∧
  (∀ bs : List Byte, (AsmLine.crc8Buf bs).expand = some (.crc8Init :: bs.map .crc8Byte)) ∧
  (∀ bs : List Byte, (AsmLine.crc16Buf bs).expand = some (.crc16Init :: bs.map .crc16Byte))

/-! ### Wire frames (30_encoding.md) -/

/-- 30_encoding.md R44: the layout of a v2 frame, offset by offset, and its length. -/
def Obligations.V2FrameLayout : Prop :=
  ∀ p : List Byte, 1 ≤ p.length → p.length ≤ 506 →
    let n := p.length
    let c := crc16 ([BitVec.ofNat 8 n, BitVec.ofNat 8 (n / 256)] ++ p)
    (v2Frame p).length = n + 6 ∧ 7 ≤ (v2Frame p).length ∧ (v2Frame p).length ≤ 512 ∧
    (v2Frame p)[0]? = some 0xAA ∧ (v2Frame p)[1]? = some 0xBB ∧
    (v2Frame p)[2]? = some (BitVec.ofNat 8 n) ∧ (v2Frame p)[3]? = some (BitVec.ofNat 8 (n / 256)) ∧
    (∀ i, i < n → (v2Frame p)[4 + i]? = p[i]?) ∧
    (v2Frame p)[4 + n]? = some (c.extractLsb' 0 8) ∧ (v2Frame p)[5 + n]? = some (c.extractLsb' 8 8) ∧
    (BitVec.ofNat 8 (n / 256) = (0 : Byte) ∨ BitVec.ofNat 8 (n / 256) = (1 : Byte))

/-- A byte sequence is well-formed as 30_encoding.md R45 judges it exactly when it is the frame of R44 of some payload of
1 to 506 bytes. -/
def Obligations.WellFormedV2FramesAreTheFramesOfPayloads : Prop :=
  ∀ f : List Byte, isV2Frame f = true ↔ ∃ p : List Byte, 1 ≤ p.length ∧ p.length ≤ 506 ∧ f = v2Frame p

/-- 30_encoding.md R46 and R47: the layouts of the legacy command and response frames, offset by offset, with the CRC-8
trailer over everything before it. That the response's trailer covers bytes 0 to 22 is the spec's own choice, by analogy
with the command's (R47, 92_eei_decisions.md D10). -/
def Obligations.LegacyFrameLayouts : Prop :=
  (∀ c : CommandContent,
    let f := legacyCommandFrame (commandBytes c)
    f.length = 8 ∧ f[0]? = some c.id ∧ f[1]? = some c.code ∧
    (∀ i : Nat, i < 5 → f[2 + i]? = c.params[i]?) ∧ f[7]? = some (crc8 (f.take 7))) ∧
  (∀ r : ResponseBody,
    let f := legacyResponseFrame (responseBytes r)
    f.length = 24 ∧ f[0]? = some r.id ∧ f[1]? = some r.status ∧
    (∀ i : Nat, i < 4 → f[2 + i]? = r.position1[i]? ∧ f[6 + i]? = r.position2[i]? ∧
      f[10 + i]? = r.position3[i]? ∧ f[14 + i]? = r.fourth[i]? ∧ f[19 + i]? = r.reserved[i]?) ∧
    f[18]? = some r.button ∧ f[23]? = some (crc8 (f.take 23)))

/-! ### CRC engine (40_crc.md) -/

/-- 40_crc.md R58 in plain arithmetic on numbers: eight passes, each testing bit 7 before the shift, from the byte XORed
into the accumulator, with no reflection and no final XOR. -/
def Obligations.Crc8UpdateIsTheEightPassLoop : Prop :=
  ∀ acc b : Byte, ∃ a : Nat → Nat,
    a 0 = acc.toNat ^^^ b.toNat ∧
    (∀ k, k < 8 → a (k + 1) = if 128 ≤ a k then (2 * a k) % 256 ^^^ 7 else (2 * a k) % 256) ∧
    (crc8Update acc b).toNat = a 8

/-- 40_crc.md R59: CRC-8 of a buffer is the fold from 0x00, with its corner cases (empty, residue, zero bytes) and the
catalogue check value. -/
def Obligations.Crc8OfABuffer : Prop :=
  crc8 [] = 0x00 ∧
  (∀ (m : List Byte) (b : Byte), crc8 (m ++ [b]) = crc8Update (crc8 m) b) ∧
  (∀ m : List Byte, crc8 (m ++ [crc8 m]) = 0x00) ∧
  (∀ n : Nat, crc8 (List.replicate n 0x00) = 0x00) ∧
  crc8 [0x31, 0x32, 0x33, 0x34, 0x35, 0x36, 0x37, 0x38, 0x39] = 0xF4

/-- 40_crc.md R60 in plain arithmetic on numbers: the byte enters the top 8 bits, then eight passes, each testing bit 15
before the shift, with no reflection and no final XOR. -/
def Obligations.Crc16UpdateIsTheEightPassLoop : Prop :=
  ∀ (acc : U16) (b : Byte), ∃ a : Nat → Nat,
    a 0 = acc.toNat ^^^ (256 * b.toNat) ∧
    (∀ k, k < 8 → a (k + 1) = if 32768 ≤ a k then (2 * a k) % 65536 ^^^ 0x1021 else (2 * a k) % 65536) ∧
    (crc16Update acc b).toNat = a 8

/-- 40_crc.md R61: CRC-16 of a buffer is the fold from 0xFFFF, with its corner cases (empty, the residue high byte first,
no residue low byte first), the buffer of a v2 frame, and the catalogue check value. -/
def Obligations.Crc16OfABuffer : Prop :=
  crc16 [] = 0xFFFF ∧
  (∀ (m : List Byte) (b : Byte), crc16 (m ++ [b]) = crc16Update (crc16 m) b) ∧
  (∀ m : List Byte, crc16 (m ++ [hi (crc16 m), lo (crc16 m)]) = 0) ∧
  (∃ m : List Byte, crc16 (m ++ [lo (crc16 m), hi (crc16 m)]) ≠ 0) ∧
  (∀ (n : U16) (p : List Byte), frameCrc n p = crc16 (lo n :: hi n :: p)) ∧
  crc16 [0x31, 0x32, 0x33, 0x34, 0x35, 0x36, 0x37, 0x38, 0x39] = 0x29B1

/-- Both updates take the byte's bits one at a time, bit 7 first (20_memory.md R38, 40_crc.md R58, R60): XORing the
byte in first and shifting eight times is the same as letting each bit in at the top as its turn comes. -/
def Obligations.CrcTakesBitSevenFirst : Prop :=
  (∀ acc b : Byte, crc8Update acc b =
    [7, 6, 5, 4, 3, 2, 1, 0].foldl (init := acc) fun (a : Byte) (k : Nat) =>
      (a <<< 1) ^^^ (if a.getLsbD 7 = b.getLsbD k then 0 else 0x07)) ∧
  (∀ (acc : U16) (b : Byte), crc16Update acc b =
    [7, 6, 5, 4, 3, 2, 1, 0].foldl (init := acc) fun (a : U16) (k : Nat) =>
      (a <<< 1) ^^^ (if a.getLsbD 15 = b.getLsbD k then 0 else 0x1021))

/-- 40_crc.md R62 and R64: CRC8_INIT and CRC16_INIT set their accumulator to its initial value and change nothing else;
their words are 0x4000 and 0x6000, and every other word of their `op` is refused. -/
def Obligations.CrcInitSetsItsAccumulator : Prop :=
  (∀ s : State, exec .crc8Init s = .next { s with crc8Acc := 0x00 }) ∧
  (∀ s : State, exec .crc16Init s = .next { s with crc16Acc := 0xFFFF }) ∧
  (∀ s : State, execAll [.crc8Init, .crc8Init] s = exec .crc8Init s) ∧
  (∀ s : State, execAll [.crc16Init, .crc16Init] s = exec .crc16Init s) ∧
  encode .crc8Init = ⟨0x4000, none⟩ ∧ encode .crc16Init = ⟨0x6000, none⟩ ∧
  (∀ (f : Format) (o : Operation) (i : Instr), decode f o = .ok i →
    (o.word.toNat / 4096 = 4 → o.word = 0x4000) ∧ (o.word.toNat / 4096 = 6 → o.word = 0x6000))

/-- 40_crc.md R63: CRC8_BYTE folds its byte into the CRC-8 accumulator and changes nothing else; its word is
0x5000 | b; a zero byte from zero, a byte equal to the accumulator, a whole buffer, and the rule's example. -/
def Obligations.Crc8ByteFoldsItsByte : Prop :=
  (∀ (b : Byte) (s : State), exec (.crc8Byte b) s = .next { s with crc8Acc := crc8Update s.crc8Acc b }) ∧
  (∀ b : Byte, encode (.crc8Byte b) = ⟨0x5000 ||| b.setWidth 16, none⟩) ∧
  crc8Update 0x00 0x00 = 0x00 ∧
  (∀ a : Byte, crc8Update a a = 0x00) ∧
  (∀ (m : List Byte) (s : State), execAll (.crc8Init :: m.map .crc8Byte) s = .next { s with crc8Acc := crc8 m }) ∧
  crc8Update 0x00 0x01 = 0x07

/-- 40_crc.md R65: CRC16_BYTE folds its byte into the CRC-16 accumulator and changes nothing else; its word is
0x7000 | b; a zero byte from 0x0000 and from 0xFFFF, a whole buffer, and the rule's example. -/
def Obligations.Crc16ByteFoldsItsByte : Prop :=
  (∀ (b : Byte) (s : State), exec (.crc16Byte b) s = .next { s with crc16Acc := crc16Update s.crc16Acc b }) ∧
  (∀ b : Byte, encode (.crc16Byte b) = ⟨0x7000 ||| b.setWidth 16, none⟩) ∧
  crc16Update 0x0000 0x00 = 0x0000 ∧ crc16Update 0xFFFF 0x00 = 0xE1F0 ∧
  (∀ (m : List Byte) (s : State), execAll (.crc16Init :: m.map .crc16Byte) s = .next { s with crc16Acc := crc16 m }) ∧
  crc16Update 0xFFFF 0x01 = 0xF1D1

/-- The accumulators are separate from everything else (10_state.md R17, 70_reset_and_hazards.md R122): only their own
operations and RESET write them, the reassembler and the framer run the same whatever they hold, and a second
computation of one width started in between loses the first. -/
def Obligations.AccumulatorsAreSeparate : Prop :=
  (∀ (i : Instr) (s t : State), exec i s = .next t →
    (t.crc8Acc ≠ s.crc8Acc → i = .crc8Init ∨ (∃ b, i = .crc8Byte b) ∨ i = .reset) ∧
    (t.crc16Acc ≠ s.crc16Acc → i = .crc16Init ∨ (∃ b, i = .crc16Byte b) ∨ i = .reset)) ∧
  (∀ (i : Instr) (s t : State) (x : Byte) (y : U16),
    (∃ b, i = .rxByte b) ∨ (∃ p, i = .txSendV2 p) ∨ (∃ p, i = .txSendLegacy p) → exec i s = .next t →
      exec i { s with crc8Acc := x, crc16Acc := y } = .next { t with crc8Acc := x, crc16Acc := y }) ∧
  (∀ (a b : Byte) (s : State), execAll [.crc8Init, .crc8Byte a, .crc8Init, .crc8Byte b] s =
    .next { s with crc8Acc := crc8 [b] })

/-! ### v2 reassembler (41_rx_v2.md) -/

/-- 41_rx_v2.md R67: the header scan, and any number of 0xAA before a 0xBB opens exactly one frame. -/
def Obligations.V2HeaderScan : Prop :=
  ∀ (s : State), s.cfg.format = .v2 →
    (∀ b : Byte, s.rxState = .awaitHeaderByte0 → exec (.rxByte b) s =
      .next { s with rxState := if b = 0xAA then .awaitHeaderByte1 else .awaitHeaderByte0 }) ∧
    (∀ b : Byte, s.rxState = .awaitHeaderByte1 → exec (.rxByte b) s =
      .next { s with rxState := if b = 0xBB then .awaitLengthLow
                                else if b = 0xAA then .awaitHeaderByte1 else .awaitHeaderByte0 }) ∧
    (∀ n : Nat, s.rxState = .awaitHeaderByte0 →
      feed (List.replicate (n + 1) 0xAA ++ [0xBB]) s = .next { s with rxState := .awaitLengthLow })

/-- 41_rx_v2.md R68 and R71: any byte is stored as the low length byte, or as the low CRC byte. -/
def Obligations.V2LowBytesAreStored : Prop :=
  ∀ (b : Byte) (s : State), s.cfg.format = .v2 →
    (s.rxState = .awaitLengthLow →
      exec (.rxByte b) s = .next { s with rxLenLo := b, rxState := .awaitLengthHigh }) ∧
    (s.rxState = .awaitCrcLow →
      exec (.rxByte b) s = .next { s with rxCrcLo := b, rxState := .awaitCrcHigh })

/-- 41_rx_v2.md R69: the length is the two bytes low byte first, 0 and everything above 506 goes back to the header scan
and changes nothing else, and any high byte of 2 or more is rejected. -/
def Obligations.V2LengthIsCheckedWhenBothBytesAreThere : Prop :=
  ∀ (b : Byte) (s : State), s.cfg.format = .v2 → s.rxState = .awaitLengthHigh →
    let n := s.rxLenLo.toNat + 256 * b.toNat
    (n = 0 ∨ 506 < n → exec (.rxByte b) s = .next { s with rxState := .awaitHeaderByte0 }) ∧
    (1 ≤ n → n ≤ 506 →
      exec (.rxByte b) s = .next { s with rxLen := BitVec.ofNat 16 n, rxCount := 0, rxState := .awaitPayload }) ∧
    (2 ≤ b.toNat → exec (.rxByte b) s = .next { s with rxState := .awaitHeaderByte0 })

/-- 41_rx_v2.md R70: a payload byte is stored at the count and counted, and the last one moves on to the CRC. The
hypothesis is the range of 10_state.md R21; the next statement but one says what happens outside it. That the bytes beyond
the count are kept is the model's choice (93_implementation_defined.md row 2, log 13). -/
def Obligations.V2PayloadByteIsStoredAndCounted : Prop :=
  ∀ (b : Byte) (s : State), s.cfg.format = .v2 → s.rxState = .awaitPayload →
    s.rxCount.toNat < s.rxLen.toNat → s.rxLen.toNat ≤ 506 →
      ∃ t : State, exec (.rxByte b) s = .next t ∧
        t = { s with
          rxBuf := t.rxBuf
          rxCount := BitVec.ofNat 16 (s.rxCount.toNat + 1)
          rxState := if s.rxCount.toNat + 1 = s.rxLen.toNat then .awaitCrcLow else .awaitPayload } ∧
        (∀ i : Nat, t.rxBuf[i]? = if i = s.rxCount.toNat then some b else s.rxBuf[i]?)

/-- 41_rx_v2.md R72: the received CRC is compared with the CRC-16 over the length and the payload; a match delivers the
payload, a mismatch does nothing else, and both go back to the header scan. Swapped CRC bytes match only where the two
bytes are equal. -/
def Obligations.V2CrcDecidesDelivery : Prop :=
  (∀ (b : Byte) (s : State), s.cfg.format = .v2 → s.rxState = .awaitCrcHigh → s.rxLen.toNat ≤ 506 →
    let payload := s.rxBuf.toList.take s.rxLen.toNat
    let expected := crc16 ([s.rxLen.extractLsb' 0 8, s.rxLen.extractLsb' 8 8] ++ payload)
    (s.rxCrcLo.toNat + 256 * b.toNat = expected.toNat → exec (.rxByte b) s =
      .next { s with events := s.events ++ [.rxFrameV2 payload], rxState := .awaitHeaderByte0 }) ∧
    (s.rxCrcLo.toNat + 256 * b.toNat ≠ expected.toNat →
      exec (.rxByte b) s = .next { s with rxState := .awaitHeaderByte0 })) ∧
  (∀ v : U16, le16 (hi v) (lo v) = v ↔ lo v = hi v)

/-- When an operation stops the machine: only where RX_BYTE would leave `rx_buf`, in a state that breaks 10_state.md R24
(the stop is the model's choice, log 8). Nothing is ever without a meaning. -/
def Obligations.OnlyABufferOverrunStops : Prop :=
  ∀ (i : Instr) (s : State),
    (∀ r, exec i s = .fault r ↔ ∃ b, i = .rxByte b ∧ r = .rxBufOverrun ∧ s.cfg.format = .v2 ∧
      ((s.rxState = .awaitPayload ∧ 506 ≤ s.rxCount.toNat) ∨
       (s.rxState = .awaitCrcHigh ∧ 506 < s.rxLen.toNat))) ∧
    (∀ r, exec i s ≠ .refused r)

/-- 41_rx_v2.md R75: a well-formed frame of any payload of 1 to 506 bytes, fed from the header scan, delivers exactly
that payload and ends in the header scan. The whole state after it: the buffer holds the payload and, beyond it, what it
held before. That it holds so beyond the payload is the model's choice (93_implementation_defined.md row 2, log 13). -/
def Obligations.V2RoundTrip : Prop :=
  ∀ (s : State) (p : List Byte), s.cfg.format = .v2 → s.rxState = .awaitHeaderByte0 →
    1 ≤ p.length → p.length ≤ 506 →
      ∃ t : State, feed (v2Frame p) s = .next t ∧
        t = { s with
          events := s.events ++ [.rxFrameV2 p]
          rxState := .awaitHeaderByte0
          rxLenLo := lo (BitVec.ofNat 16 p.length)
          rxLen := BitVec.ofNat 16 p.length
          rxCount := BitVec.ofNat 16 p.length
          rxBuf := t.rxBuf
          rxCrcLo := t.rxCrcLo } ∧
        t.rxBuf.toList = p ++ s.rxBuf.toList.drop p.length

/-- 41_rx_v2.md R76: flipping any one bit of the payload of a well-formed frame, with the original CRC kept, delivers
nothing and ends in the header scan. -/
def Obligations.V2SingleBitPayloadErrorIsDropped : Prop :=
  ∀ (s : State) (p : List Byte) (i k : Nat), s.cfg.format = .v2 → s.rxState = .awaitHeaderByte0 →
    1 ≤ p.length → p.length ≤ 506 → i < p.length → k < 8 →
      ∃ t : State, feed (v2FrameWithCrcOf p (flipBit p i k)) s = .next t ∧
        t.events = s.events ∧ t.crcErrLatch = s.crcErrLatch ∧ t.rxState = .awaitHeaderByte0

/-- 41_rx_v2.md R77: an extra first header byte before a frame is noise, and exactly one frame is delivered. -/
def Obligations.V2ResynchronisesOnARepeatedHeaderByte : Prop :=
  ∀ (s : State) (p : List Byte), s.cfg.format = .v2 → s.rxState = .awaitHeaderByte0 →
    1 ≤ p.length → p.length ≤ 506 →
      ∃ t : State, feed (0xAA :: v2Frame p) s = .next t ∧
        t.events = s.events ++ [.rxFrameV2 p] ∧ t.rxState = .awaitHeaderByte0

/-- 41_rx_v2.md R78: any length of 0 or above 506 (0, 507 and 65535 among them) is rejected, and a well-formed frame that
follows is delivered. -/
def Obligations.V2RejectedLengthThenValidFrame : Prop :=
  ∀ (s : State) (l h : Byte) (p : List Byte), s.cfg.format = .v2 → s.rxState = .awaitHeaderByte0 →
    (l.toNat + 256 * h.toNat = 0 ∨ 506 < l.toNat + 256 * h.toNat) → 1 ≤ p.length → p.length ≤ 506 →
      feed [0xAA, 0xBB, l, h] s = .next { s with rxLenLo := l, rxState := .awaitHeaderByte0 } ∧
      ∃ t : State, feed ([0xAA, 0xBB, l, h] ++ v2Frame p) s = .next t ∧
        t.events = s.events ++ [.rxFrameV2 p] ∧ t.rxState = .awaitHeaderByte0

/-- Every stream is received, and whatever is delivered stands in it as a whole well-formed frame (30_encoding.md R45,
60_exceptions.md R114: never a frame that fails its CRC). -/
def Obligations.V2DeliversOnlyFramesInTheStream : Prop :=
  ∀ (s : State) (bs : List Byte), s.cfg.format = .v2 → s.rxState = .awaitHeaderByte0 →
    ∃ (t : State) (es : List Event), feed bs s = .next t ∧ t.events = s.events ++ es ∧
      ∀ e ∈ es, ∃ (p before after : List Byte), e = .rxFrameV2 p ∧ 1 ≤ p.length ∧ p.length ≤ 506 ∧
        bs = before ++ v2Frame p ++ after

/-- 41_rx_v2.md R74: once a length has been accepted, the machine absorbs exactly that many payload bytes and two CRC
bytes, whatever they are: before the last of them nothing is emitted and it stays in the payload and CRC states, and the
last returns it to the header scan with at most one delivery. -/
def Obligations.V2AcceptedLengthAbsorbsItsBytes : Prop :=
  ∀ (s : State) (bs : List Byte), s.cfg.format = .v2 → s.rxState = .awaitPayload → s.rxCount = 0 →
    1 ≤ s.rxLen.toNat → s.rxLen.toNat ≤ 506 →
    (bs.length < s.rxLen.toNat + 2 → ∃ t : State, feed bs s = .next t ∧ t.events = s.events ∧
      (t.rxState = .awaitPayload ∨ t.rxState = .awaitCrcLow ∨ t.rxState = .awaitCrcHigh)) ∧
    (bs.length = s.rxLen.toNat + 2 → ∃ t : State, feed bs s = .next t ∧ t.rxState = .awaitHeaderByte0 ∧
      (t.events = s.events ∨ t.events = s.events ++ [.rxFrameV2 (bs.take s.rxLen.toNat)]))

/-- 60_exceptions.md R103: each error condition with its class, exactly when RX_BYTE meets it, and what it then leaves: no
event at all, the latch set by the legacy mismatch and by nothing else, and the receiver back at its start. -/
def Obligations.ErrorConditionsAndTheirEffects : Prop :=
  ∀ (b : Byte) (s : State),
    (errorCondition b s = some .v2BadHeader ↔ s.cfg.format = .v2 ∧
      ((s.rxState = .awaitHeaderByte0 ∧ b ≠ 0xAA) ∨ (s.rxState = .awaitHeaderByte1 ∧ b ≠ 0xBB ∧ b ≠ 0xAA))) ∧
    (errorCondition b s = some .v2BadLength ↔ s.cfg.format = .v2 ∧ s.rxState = .awaitLengthHigh ∧
      (s.rxLenLo.toNat + 256 * b.toNat = 0 ∨ 506 < s.rxLenLo.toNat + 256 * b.toNat)) ∧
    (errorCondition b s = some .v2CrcMismatch ↔ s.cfg.format = .v2 ∧ s.rxState = .awaitCrcHigh ∧
      s.rxLen.toNat ≤ 506 ∧ s.rxCrcLo.toNat + 256 * b.toNat ≠
        (crc16 ([lo s.rxLen, hi s.rxLen] ++ s.rxBuf.toList.take s.rxLen.toNat)).toNat) ∧
    (errorCondition b s = some .legacyCrcMismatch ↔
      s.cfg.format = .legacy ∧ s.lgIdx = 7 ∧ b ≠ crc8 s.lgWin.toList) ∧
    (∀ c, errorCondition b s = some c → c ≠ .legacyCrcMismatch →
      exec (.rxByte b) s = .next { s with rxState := .awaitHeaderByte0 }) ∧
    (errorCondition b s = some .legacyCrcMismatch →
      exec (.rxByte b) s = .next { s with crcErrLatch := true, lgIdx := 0 }) ∧
    errorClassOf .v2BadHeader = .framing ∧ errorClassOf .v2BadLength = .framing ∧
    errorClassOf .v2CrcMismatch = .integrity ∧ errorClassOf .legacyCrcMismatch = .integrity

/-! ### Legacy reassembler (42_rx_legacy.md) -/

/-- 42_rx_legacy.md R83: bytes 0 to 6 of a window are stored in turn. -/
def Obligations.LegacyWindowBytesAreStored : Prop :=
  ∀ (b : Byte) (s : State), s.cfg.format = .legacy → s.lgIdx.val < 7 →
    ∃ t : State, exec (.rxByte b) s = .next t ∧ t = { s with lgWin := t.lgWin, lgIdx := t.lgIdx } ∧
      t.lgIdx.val = s.lgIdx.val + 1 ∧
      (∀ i : Nat, t.lgWin[i]? = if i = s.lgIdx.val then some b else s.lgWin[i]?)

/-- 42_rx_legacy.md R84: the trailer decides: a match delivers the 7 bytes, a mismatch sets the latch and delivers
nothing, both return to window position 0, and the trailer is not stored. An all-zero window is delivered, and a zero
trailer matches exactly where the CRC-8 of the 7 bytes is zero. -/
def Obligations.LegacyTrailerDecides : Prop :=
  ∀ (s : State), s.cfg.format = .legacy →
    (s.lgIdx = 7 →
      (∀ b : Byte, b = crc8 s.lgWin.toList → exec (.rxByte b) s =
        .next { s with events := s.events ++ [.rxCmdLegacy s.lgWin.toList], lgIdx := 0 }) ∧
      (∀ b : Byte, b ≠ crc8 s.lgWin.toList →
        exec (.rxByte b) s = .next { s with crcErrLatch := true, lgIdx := 0 }) ∧
      ((∃ t, exec (.rxByte 0x00) s = .next t ∧ t.events = s.events ++ [.rxCmdLegacy s.lgWin.toList]) ↔
        crc8 s.lgWin.toList = 0x00)) ∧
    (s.lgIdx = 0 → ∃ t, feed (List.replicate 8 0x00) s = .next t ∧
      t.events = s.events ++ [.rxCmdLegacy (List.replicate 7 0x00)] ∧ t.lgIdx = 0)

/-- 42_rx_legacy.md R85 (with R84, and 20_memory.md R39): windows are aligned to 8 bytes. From window position 0, a stream
of whole windows delivers exactly the windows whose trailer is right, in order, sets the latch exactly when some trailer
is wrong, and ends at position 0. -/
def Obligations.LegacyWindowsAreBlockAligned : Prop :=
  ∀ (s : State) (ws : List (List Byte)), s.cfg.format = .legacy → s.lgIdx = 0 → (∀ w ∈ ws, w.length = 8) →
    ∃ t : State, feed ws.flatten s = .next t ∧
      t = { s with
        events := s.events ++ deliveredWindows ws
        crcErrLatch := s.crcErrLatch || someMismatch ws
        lgIdx := 0
        lgWin := t.lgWin }

/-- 42_rx_legacy.md R87: the latch, once set, is cleared only by CLEAR_CRC_ERR, RESET, and TX_SEND_LEGACY with
CLEAR_LATCH_ON_REPORT; and it is set only by RX_BYTE at a legacy mismatch. -/
def Obligations.LatchIsSticky : Prop :=
  ∀ (i : Instr) (s t : State), exec i s = .next t →
    (s.crcErrLatch = true → t.crcErrLatch = false →
      i = .clearCrcErr ∨ i = .reset ∨ ((∃ body, i = .txSendLegacy body) ∧ s.cfg.clearLatchOnReport = true)) ∧
    (s.crcErrLatch = false → t.crcErrLatch = true →
      ∃ b, i = .rxByte b ∧ errorCondition b s = some .legacyCrcMismatch)

/-- 70_reset_and_hazards.md R124: a mismatch that lands between the builder's read of the latch and TX_SEND_LEGACY is
cleared unreported where reports clear the latch, and kept where they do not. -/
def Obligations.LatchReportingRace : Prop :=
  ∀ (b : Byte) (body : List Byte) (s : State), s.cfg.format = .legacy → s.lgIdx = 7 → b ≠ crc8 s.lgWin.toList →
    body.length = 23 →
      execAll [.rxByte b, .txSendLegacy body] s =
        .next { s with
          lgIdx := 0
          crcErrLatch := !s.cfg.clearLatchOnReport
          events := s.events ++ [.txBytes (body ++ [crc8 body])] }

/-! ### Receive buffers (70_reset_and_hazards.md) -/

/-- 70_reset_and_hazards.md R123: how long a delivered frame's bytes stay in the block. Byte `i` of `rx_buf` is kept
through the next 4 + i bytes, whatever they are, and a frame that follows at once overwrites it with its own byte `i` at
the (5 + i)th; byte `i` of `lg_win` is kept through the next i bytes and overwritten by the (i + 1)th.
Bytes beyond the delivered payload, and bytes after a dropped frame, are kept so by the model's choice
(93_implementation_defined.md row 2, log 13). -/
def Obligations.ReceiveBufferReuseDistance : Prop :=
  (∀ (s : State) (bs : List Byte), s.cfg.format = .v2 → s.rxState = .awaitHeaderByte0 →
    ∃ t : State, feed bs s = .next t ∧ ∀ i : Nat, bs.length < 5 + i → t.rxBuf[i]? = s.rxBuf[i]?) ∧
  (∀ (s : State) (p : List Byte) (i : Nat), s.cfg.format = .v2 → s.rxState = .awaitHeaderByte0 →
    p.length ≤ 506 → i < p.length →
      ∃ t : State, feed ((v2Frame p).take (5 + i)) s = .next t ∧ t.rxBuf[i]? = p[i]?) ∧
  (∀ (s : State) (bs : List Byte), s.cfg.format = .legacy → s.lgIdx = 0 →
    ∃ t : State, feed bs s = .next t ∧ ∀ i : Nat, bs.length < 1 + i → t.lgWin[i]? = s.lgWin[i]?) ∧
  (∀ (s : State) (bs : List Byte) (i : Nat), i < 7 → s.cfg.format = .legacy → s.lgIdx = 0 →
    bs.length = 1 + i → ∃ t : State, feed bs s = .next t ∧ t.lgWin[i]? = bs[i]?)

/-- What one RX_BYTE leaves unchanged (the Writes of 41_rx_v2.md R66 and 42_rx_legacy.md R82). In a v2 instance: all but
the rx registers and the output, and of `rx_buf` every byte but the one at the count while in AWAIT_PAYLOAD. In a legacy
instance: all but `lg_idx`, `lg_win`, the latch and the output, and of `lg_win` every byte but the one at the index.
That `rx_buf` keeps its bytes where 93_implementation_defined.md row 2 leaves them open is the model's choice (log 13). -/
def Obligations.RxByteFrame : Prop :=
  ∀ (b : Byte) (s t : State), exec (.rxByte b) s = .next t →
    (s.cfg.format = .v2 →
      t = { s with
        rxState := t.rxState, rxLenLo := t.rxLenLo, rxLen := t.rxLen, rxCount := t.rxCount, rxBuf := t.rxBuf
        rxCrcLo := t.rxCrcLo, events := t.events } ∧
      (s.rxState ≠ .awaitLengthLow → t.rxLenLo = s.rxLenLo) ∧
      (s.rxState ≠ .awaitLengthHigh → t.rxLen = s.rxLen) ∧
      (s.rxState ≠ .awaitLengthHigh → s.rxState ≠ .awaitPayload → t.rxCount = s.rxCount) ∧
      (s.rxState ≠ .awaitCrcLow → t.rxCrcLo = s.rxCrcLo) ∧
      (s.rxState ≠ .awaitCrcHigh → t.events = s.events) ∧
      (∀ i : Nat, s.rxState ≠ .awaitPayload ∨ i ≠ s.rxCount.toNat → t.rxBuf[i]? = s.rxBuf[i]?)) ∧
    (s.cfg.format = .legacy →
      t = { s with lgIdx := t.lgIdx, lgWin := t.lgWin, crcErrLatch := t.crcErrLatch, events := t.events } ∧
      (s.crcErrLatch = true → t.crcErrLatch = true) ∧
      (s.lgIdx ≠ 7 → t.events = s.events ∧ t.crcErrLatch = s.crcErrLatch) ∧
      (∀ i : Nat, i ≠ s.lgIdx.val → t.lgWin[i]? = s.lgWin[i]?))

/-- Only RX_BYTE advances the receiver (10_state.md R14), and besides it only RESET touches it: every other operation
leaves every register of both reassemblers as it was. RESET leaves all but the sequencing state. -/
def Obligations.OnlyReceivedBytesAndResetMoveTheReceiver : Prop :=
  ∀ (i : Instr) (s t : State), exec i s = .next t → (∀ b, i ≠ .rxByte b) →
    t.rxLenLo = s.rxLenLo ∧ t.rxLen = s.rxLen ∧ t.rxCount = s.rxCount ∧ t.rxBuf = s.rxBuf ∧
    t.rxCrcLo = s.rxCrcLo ∧ t.lgWin = s.lgWin ∧
    (i ≠ .reset → t.rxState = s.rxState ∧ t.lgIdx = s.lgIdx)

/-! ### Framer (43_tx_framer.md) -/

/-- 43_tx_framer.md R91: TX_SEND_V2 emits the frame of its payload and changes nothing else; in the other format, or with
a payload of 0 or more than 506 bytes, it is refused; its word is 0x2000 with the payload attached. That a refusal
leaves its reason in `lastRefusal` is the model's choice (log 5). -/
def Obligations.TxSendV2EmitsOneFrame : Prop :=
  (∀ (p : List Byte) (s : State), s.cfg.format = .v2 → 1 ≤ p.length → p.length ≤ 506 →
    let l : Byte := BitVec.ofNat 8 p.length
    let h : Byte := BitVec.ofNat 8 (p.length / 256)
    let c := crc16 ([l, h] ++ p)
    exec (.txSendV2 p) s =
      .next { s with events := s.events ++ [.txBytes ([0xAA, 0xBB, l, h] ++ p ++ [lo c, hi c])] }) ∧
  (∀ (p : List Byte) (s : State), s.cfg.format = .legacy →
    exec (.txSendV2 p) s = .next { s with refused := true, lastRefusal := some .wrongFormat }) ∧
  (∀ (p : List Byte) (s : State), s.cfg.format = .v2 → p.length = 0 ∨ 506 < p.length →
    exec (.txSendV2 p) s = .next { s with refused := true, lastRefusal := some .txLength }) ∧
  (∀ p : List Byte, encode (.txSendV2 p) = ⟨0x2000, some p⟩) ∧
  (∀ p : List Byte, p.length = 506 → (v2Frame p).length = 512 ∧ (v2Frame p)[2]? = some 0xFA ∧
    (v2Frame p)[3]? = some 0x01) ∧
  v2Frame [0x01, 0x02, 0x03] = [0xAA, 0xBB, 0x03, 0x00, 0x01, 0x02, 0x03, 0xEF, 0x9E]

/-- 43_tx_framer.md R94 and R95: TX_SEND_LEGACY emits its 23-byte body and the CRC-8 over it, clears the latch exactly
where CLEAR_LATCH_ON_REPORT is true, and changes nothing else; in the other format, or with a body of another length, it
is refused; its word is 0x3000 with the body attached. That a refusal leaves its reason in `lastRefusal` is the model's
choice (log 5). -/
def Obligations.TxSendLegacyEmitsOneFrame : Prop :=
  (∀ (body : List Byte) (s : State), s.cfg.format = .legacy → body.length = 23 →
    exec (.txSendLegacy body) s =
      .next { s with
        events := s.events ++ [.txBytes (body ++ [crc8 body])]
        crcErrLatch := if s.cfg.clearLatchOnReport = true then false else s.crcErrLatch }) ∧
  (∀ (body : List Byte) (s : State), s.cfg.format = .v2 →
    exec (.txSendLegacy body) s = .next { s with refused := true, lastRefusal := some .wrongFormat }) ∧
  (∀ (body : List Byte) (s : State), s.cfg.format = .legacy → body.length ≠ 23 →
    exec (.txSendLegacy body) s = .next { s with refused := true, lastRefusal := some .txLength }) ∧
  (∀ body : List Byte, encode (.txSendLegacy body) = ⟨0x3000, some body⟩) ∧
  List.replicate 23 0x00 ++ [crc8 (List.replicate 23 0x00)] = List.replicate 24 (0x00 : Byte) ∧
  crc8 ([0x01, 0x00] ++ List.replicate 21 0x00) = 0xB9

/-- 43_tx_framer.md R90: a framer operation reads nothing of the state but the configuration and touches nothing of it but
the output, the latch (TX_SEND_LEGACY only) and the refusal mark. -/
def Obligations.FramerIsStateless : Prop :=
  ∀ (i : Instr) (s t : State), (∃ p, i = .txSendV2 p) ∨ (∃ p, i = .txSendLegacy p) → exec i s = .next t →
    t = { s with
      events := t.events, crcErrLatch := t.crcErrLatch, refused := t.refused, lastRefusal := t.lastRefusal } ∧
    ((∃ p, i = .txSendV2 p) → t.crcErrLatch = s.crcErrLatch) ∧
    (∀ u v : State, u.cfg = s.cfg → exec i u = .next v →
      ∃ es, t.events = s.events ++ es ∧ v.events = u.events ++ es)

/-- 43_tx_framer.md R92 and 41_rx_v2.md R80: each operation emits at most one event, only a framer operation emits a
frame for the link, and only a received byte emits a received frame. No event is ever taken back. -/
def Obligations.WhoEmitsWhat : Prop :=
  ∀ (i : Instr) (s t : State), exec i s = .next t →
    t.events = s.events ∨ ∃ e, t.events = s.events ++ [e] ∧
      ((∃ f, e = .txBytes f) ∧ ((∃ p, i = .txSendV2 p) ∨ ∃ p, i = .txSendLegacy p) ∨
       (∃ p, e = .rxFrameV2 p) ∧ (∃ b, i = .rxByte b) ∧ s.cfg.format = .v2 ∨
       (∃ c, e = .rxCmdLegacy c) ∧ (∃ b, i = .rxByte b) ∧ s.cfg.format = .legacy)

/-- 43_tx_framer.md R96: the frame TX_SEND_V2 emits, fed back byte by byte to a reassembler in the header scan, delivers
exactly the payload sent and ends in the header scan. A legacy response has 24 bytes where a command has 8. -/
def Obligations.FramerReassemblerLoopback : Prop :=
  (∀ (s : State) (p : List Byte), s.cfg.format = .v2 → s.rxState = .awaitHeaderByte0 →
    1 ≤ p.length → p.length ≤ 506 →
      ∃ (f : List Byte) (t u : State), exec (.txSendV2 p) s = .next t ∧ t.events = s.events ++ [.txBytes f] ∧
        feed f t = .next u ∧ u.events = t.events ++ [.rxFrameV2 p] ∧ u.rxState = .awaitHeaderByte0) ∧
  (∀ (body content : List Byte), body.length = 23 → content.length = 7 →
    (legacyResponseFrame body).length = 24 ∧ (legacyCommandFrame content).length = 8)

/-! ### Control operations and reset (44_control.md, 70_reset_and_hazards.md) -/

/-- 44_control.md R98: CLEAR_CRC_ERR clears the latch and changes nothing else, in both formats and whatever stands in
the receiver; doing it twice is doing it once; its word is 0x8000. -/
def Obligations.ClearCrcErrClearsOnlyTheLatch : Prop :=
  (∀ s : State, exec .clearCrcErr s = .next { s with crcErrLatch := false }) ∧
  (∀ s : State, execAll [.clearCrcErr, .clearCrcErr] s = exec .clearCrcErr s) ∧
  (∀ (b : Byte) (s : State), s.cfg.format = .legacy → s.lgIdx = 7 → b ≠ crc8 s.lgWin.toList →
    ∃ t, execAll [.clearCrcErr, .rxByte b] s = .next t ∧ t.crcErrLatch = true) ∧
  encode .clearCrcErr = ⟨0x8000, none⟩

/-- 44_control.md R99: RESET writes the latch, both accumulators and the receive state of its format, and nothing else;
its word is 0xF000. -/
def Obligations.ResetWritesExactlyTheResetState : Prop :=
  (∀ s : State, s.cfg.format = .v2 → exec .reset s =
    .next { s with crcErrLatch := false, crc8Acc := 0x00, crc16Acc := 0xFFFF, rxState := .awaitHeaderByte0 }) ∧
  (∀ s : State, s.cfg.format = .legacy → exec .reset s =
    .next { s with crcErrLatch := false, crc8Acc := 0x00, crc16Acc := 0xFFFF, lgIdx := 0 }) ∧
  encode .reset = ⟨0xF000, none⟩

/-- 70_reset_and_hazards.md R116: the reset value of every register that has one, in an instance of any configuration. -/
def Obligations.ResetStateValues : Prop :=
  ∀ c : Config,
    (State.resetFor c).crcErrLatch = false ∧ (State.resetFor c).crc8Acc = 0x00 ∧
    (State.resetFor c).crc16Acc = 0xFFFF ∧ (State.resetFor c).rxState = .awaitHeaderByte0 ∧
    (State.resetFor c).rxState.code = 0 ∧ (State.resetFor c).lgIdx = 0 ∧
    (State.resetFor c).refused = false ∧ (State.resetFor c).cfg = c

/-! ### The whole machine -/

/-- 00_scope.md R6: FORMAT (and the open parameter with it) is fixed for the life of an instance. -/
def Obligations.ConfigurationNeverChanges : Prop :=
  ∀ s t : State, step s = .next t → t.cfg = s.cfg

/-- 10_state.md R31: the mark is false at reset, set by every refused operation, never cleared by any step, and set by
nothing else; a run that ends with it set has no meaning. -/
def Obligations.RefusedMarkIsPermanent : Prop :=
  (∀ c : Config, (State.resetFor c).refused = false) ∧
  (∀ (s : State) (o : Operation) (rest : List Operation) (r : RefuseReason),
    s.pending = o :: rest → decode s.cfg.format o = .error r → ∃ t : State, step s = .next t ∧ t.refused = true) ∧
  (∀ s t : State, step s = .next t →
    (s.refused = true → t.refused = true) ∧
    (t.refused = true → s.refused = true ∨
      ∃ o rest r, s.pending = o :: rest ∧ decode s.cfg.format o = .error r)) ∧
  (∀ s : State, s.refused = true → s.observe.hasMeaning = false)

/-- Every step keeps the invariant of the machine: the v2 reassembler fits its counters (10_state.md R20, R21, R24), the
latch of a v2 instance is never set (10_state.md R16), and the mark goes with a reported reason (the model's own field,
log 5). -/
def Obligations.StepKeepsTheInvariant : Prop :=
  ∀ s t : State, Inv s → step s = .next t → Inv t

/-- The invariant holds right after reset, whatever the configuration and whatever stands in the registers the spec leaves
unspecified. -/
def Obligations.ResetMeetsTheInvariant : Prop :=
  ∀ (c : Config) (u : Unspecified), Inv ((State.resetFor c).withUnspecified u) ∧ Inv (State.resetFor c)

/-- 60_exceptions.md R101: no operation stops the block or changes its mode, from any state that meets the invariant. It
is the bounds that make it so: the buffer is never overrun. -/
def Obligations.NoOperationStopsTheBlock : Prop :=
  ∀ s : State, Inv s →
    (∀ i : Instr, ∃ t : State, exec i s = .next t ∧ t.cfg = s.cfg) ∧ ∃ t : State, step s = .next t

/-- The invariants of 10_state.md R24 in every state that a run of any operations reaches from reset in a v2 instance,
whatever the unspecified registers held: the receive state is one of codes 0 to 6, the length and the count fit it, and
no index reaches past 505. Every such run goes on to its end. R24's bound on `rx_count` is stated in the states that
read or fix it, because 70_reset_and_hazards.md R116 lets `rx_count` hold any value at reset (log 11). That the code is
one of 0 to 6 holds by the type of `rxState`, which is the model's choice (log 12). -/
def Obligations.V2InvariantsInEveryReachableState : Prop :=
  ∀ (c : Config) (u : Unspecified) (os : List Operation), c.format = .v2 →
    ∃ t : State, runOps os ((State.resetFor c).withUnspecified u) = .next t ∧
      t.rxState.code.toNat ≤ 6 ∧
      (t.rxState = .awaitPayload → 1 ≤ t.rxLen.toNat ∧ t.rxLen.toNat ≤ 506 ∧ t.rxCount.toNat < t.rxLen.toNat) ∧
      (t.rxState = .awaitCrcLow ∨ t.rxState = .awaitCrcHigh → t.rxCount = t.rxLen ∧ t.rxLen.toNat ≤ 506) ∧
      (t.rxState = .awaitPayload → t.rxCount.toNat ≤ 505) ∧
      t.crcErrLatch = false

/-- Everything an instance ever emits has the shape 30_encoding.md R55 gives it, and a frame of a v2 instance is
well-formed (43_tx_framer.md R91): every step keeps that. -/
def Obligations.EmittedEventsAreWellShaped : Prop :=
  ∀ s t : State, Inv s → (∀ e ∈ s.events, e.okFor s.cfg.format) → step s = .next t →
    ∀ e ∈ t.events, e.okFor t.cfg.format

/-- 70_reset_and_hazards.md R118: a run of any operations from reset is observed the same under every choice of the
values of the unspecified registers. -/
def Obligations.UnspecifiedRegistersAreUnobservable : Prop :=
  ∀ (c : Config) (u v : Unspecified) (os : List Operation),
    (observed (runOps os ((State.resetFor c).withUnspecified u))).isSome = true ∧
    observed (runOps os ((State.resetFor c).withUnspecified u)) =
      observed (runOps os ((State.resetFor c).withUnspecified v))

/-- What makes 70_reset_and_hazards.md R118 true, as one step: no register is read before it is written (10_state.md R19
to R23 and R26). Two states that agree but for registers not yet written in the present receive state step alike, and
agree so again. -/
def Obligations.StepReadsNoUnwrittenRegister : Prop :=
  ∀ s t s' : State, Inv s → AgreeOnWritten s t → step s = .next s' →
    ∃ t' : State, step t = .next t' ∧ AgreeOnWritten s' t'

/-- Right after reset, any two choices of the unspecified registers agree so. -/
def Obligations.ResetStatesAgreeOnWhatIsWritten : Prop :=
  ∀ (c : Config) (u v : Unspecified),
    AgreeOnWritten ((State.resetFor c).withUnspecified u) ((State.resetFor c).withUnspecified v)
end

