-- ==== Sys2Proof/Laws/State.lean ====
section
/-! SUPPORT. One lemma a field for each named update of State, so that no proof unfolds a record update. -/

namespace Sys2Proof.Machine

/-! ### setLatch s -/

@[simp] theorem setLatch_cfg (s : State) : (setLatch s).cfg = s.cfg := rfl
@[simp] theorem setLatch_crcErrLatch (s : State) : (setLatch s).crcErrLatch = true := rfl
@[simp] theorem setLatch_crc8Acc (s : State) : (setLatch s).crc8Acc = s.crc8Acc := rfl
@[simp] theorem setLatch_crc16Acc (s : State) : (setLatch s).crc16Acc = s.crc16Acc := rfl
@[simp] theorem setLatch_rxState (s : State) : (setLatch s).rxState = s.rxState := rfl
@[simp] theorem setLatch_rxLenLo (s : State) : (setLatch s).rxLenLo = s.rxLenLo := rfl
@[simp] theorem setLatch_rxLen (s : State) : (setLatch s).rxLen = s.rxLen := rfl
@[simp] theorem setLatch_rxCount (s : State) : (setLatch s).rxCount = s.rxCount := rfl
@[simp] theorem setLatch_rxBuf (s : State) : (setLatch s).rxBuf = s.rxBuf := rfl
@[simp] theorem setLatch_rxCrcLo (s : State) : (setLatch s).rxCrcLo = s.rxCrcLo := rfl
@[simp] theorem setLatch_lgIdx (s : State) : (setLatch s).lgIdx = s.lgIdx := rfl
@[simp] theorem setLatch_lgWin (s : State) : (setLatch s).lgWin = s.lgWin := rfl
@[simp] theorem setLatch_refused (s : State) : (setLatch s).refused = s.refused := rfl
@[simp] theorem setLatch_lastRefusal (s : State) : (setLatch s).lastRefusal = s.lastRefusal := rfl
@[simp] theorem setLatch_events (s : State) : (setLatch s).events = s.events := rfl
@[simp] theorem setLatch_pending (s : State) : (setLatch s).pending = s.pending := rfl

/-! ### clearLatch s -/

@[simp] theorem clearLatch_cfg (s : State) : (clearLatch s).cfg = s.cfg := rfl
@[simp] theorem clearLatch_crcErrLatch (s : State) : (clearLatch s).crcErrLatch = false := rfl
@[simp] theorem clearLatch_crc8Acc (s : State) : (clearLatch s).crc8Acc = s.crc8Acc := rfl
@[simp] theorem clearLatch_crc16Acc (s : State) : (clearLatch s).crc16Acc = s.crc16Acc := rfl
@[simp] theorem clearLatch_rxState (s : State) : (clearLatch s).rxState = s.rxState := rfl
@[simp] theorem clearLatch_rxLenLo (s : State) : (clearLatch s).rxLenLo = s.rxLenLo := rfl
@[simp] theorem clearLatch_rxLen (s : State) : (clearLatch s).rxLen = s.rxLen := rfl
@[simp] theorem clearLatch_rxCount (s : State) : (clearLatch s).rxCount = s.rxCount := rfl
@[simp] theorem clearLatch_rxBuf (s : State) : (clearLatch s).rxBuf = s.rxBuf := rfl
@[simp] theorem clearLatch_rxCrcLo (s : State) : (clearLatch s).rxCrcLo = s.rxCrcLo := rfl
@[simp] theorem clearLatch_lgIdx (s : State) : (clearLatch s).lgIdx = s.lgIdx := rfl
@[simp] theorem clearLatch_lgWin (s : State) : (clearLatch s).lgWin = s.lgWin := rfl
@[simp] theorem clearLatch_refused (s : State) : (clearLatch s).refused = s.refused := rfl
@[simp] theorem clearLatch_lastRefusal (s : State) : (clearLatch s).lastRefusal = s.lastRefusal := rfl
@[simp] theorem clearLatch_events (s : State) : (clearLatch s).events = s.events := rfl
@[simp] theorem clearLatch_pending (s : State) : (clearLatch s).pending = s.pending := rfl

/-! ### emit e s -/

@[simp] theorem emit_cfg (e : Event) (s : State) : (emit e s).cfg = s.cfg := rfl
@[simp] theorem emit_crcErrLatch (e : Event) (s : State) : (emit e s).crcErrLatch = s.crcErrLatch := rfl
@[simp] theorem emit_crc8Acc (e : Event) (s : State) : (emit e s).crc8Acc = s.crc8Acc := rfl
@[simp] theorem emit_crc16Acc (e : Event) (s : State) : (emit e s).crc16Acc = s.crc16Acc := rfl
@[simp] theorem emit_rxState (e : Event) (s : State) : (emit e s).rxState = s.rxState := rfl
@[simp] theorem emit_rxLenLo (e : Event) (s : State) : (emit e s).rxLenLo = s.rxLenLo := rfl
@[simp] theorem emit_rxLen (e : Event) (s : State) : (emit e s).rxLen = s.rxLen := rfl
@[simp] theorem emit_rxCount (e : Event) (s : State) : (emit e s).rxCount = s.rxCount := rfl
@[simp] theorem emit_rxBuf (e : Event) (s : State) : (emit e s).rxBuf = s.rxBuf := rfl
@[simp] theorem emit_rxCrcLo (e : Event) (s : State) : (emit e s).rxCrcLo = s.rxCrcLo := rfl
@[simp] theorem emit_lgIdx (e : Event) (s : State) : (emit e s).lgIdx = s.lgIdx := rfl
@[simp] theorem emit_lgWin (e : Event) (s : State) : (emit e s).lgWin = s.lgWin := rfl
@[simp] theorem emit_refused (e : Event) (s : State) : (emit e s).refused = s.refused := rfl
@[simp] theorem emit_lastRefusal (e : Event) (s : State) : (emit e s).lastRefusal = s.lastRefusal := rfl
@[simp] theorem emit_events (e : Event) (s : State) : (emit e s).events = s.events ++ [e] := rfl
@[simp] theorem emit_pending (e : Event) (s : State) : (emit e s).pending = s.pending := rfl

/-! ### refuse r s -/

@[simp] theorem refuse_cfg (r : RefuseReason) (s : State) : (refuse r s).cfg = s.cfg := rfl
@[simp] theorem refuse_crcErrLatch (r : RefuseReason) (s : State) : (refuse r s).crcErrLatch = s.crcErrLatch := rfl
@[simp] theorem refuse_crc8Acc (r : RefuseReason) (s : State) : (refuse r s).crc8Acc = s.crc8Acc := rfl
@[simp] theorem refuse_crc16Acc (r : RefuseReason) (s : State) : (refuse r s).crc16Acc = s.crc16Acc := rfl
@[simp] theorem refuse_rxState (r : RefuseReason) (s : State) : (refuse r s).rxState = s.rxState := rfl
@[simp] theorem refuse_rxLenLo (r : RefuseReason) (s : State) : (refuse r s).rxLenLo = s.rxLenLo := rfl
@[simp] theorem refuse_rxLen (r : RefuseReason) (s : State) : (refuse r s).rxLen = s.rxLen := rfl
@[simp] theorem refuse_rxCount (r : RefuseReason) (s : State) : (refuse r s).rxCount = s.rxCount := rfl
@[simp] theorem refuse_rxBuf (r : RefuseReason) (s : State) : (refuse r s).rxBuf = s.rxBuf := rfl
@[simp] theorem refuse_rxCrcLo (r : RefuseReason) (s : State) : (refuse r s).rxCrcLo = s.rxCrcLo := rfl
@[simp] theorem refuse_lgIdx (r : RefuseReason) (s : State) : (refuse r s).lgIdx = s.lgIdx := rfl
@[simp] theorem refuse_lgWin (r : RefuseReason) (s : State) : (refuse r s).lgWin = s.lgWin := rfl
@[simp] theorem refuse_refused (r : RefuseReason) (s : State) : (refuse r s).refused = true := rfl
@[simp] theorem refuse_lastRefusal (r : RefuseReason) (s : State) : (refuse r s).lastRefusal = some r := rfl
@[simp] theorem refuse_events (r : RefuseReason) (s : State) : (refuse r s).events = s.events := rfl
@[simp] theorem refuse_pending (r : RefuseReason) (s : State) : (refuse r s).pending = s.pending := rfl

/-! ### rxGoto q s -/

@[simp] theorem rxGoto_cfg (q : RxState) (s : State) : (rxGoto q s).cfg = s.cfg := rfl
@[simp] theorem rxGoto_crcErrLatch (q : RxState) (s : State) : (rxGoto q s).crcErrLatch = s.crcErrLatch := rfl
@[simp] theorem rxGoto_crc8Acc (q : RxState) (s : State) : (rxGoto q s).crc8Acc = s.crc8Acc := rfl
@[simp] theorem rxGoto_crc16Acc (q : RxState) (s : State) : (rxGoto q s).crc16Acc = s.crc16Acc := rfl
@[simp] theorem rxGoto_rxState (q : RxState) (s : State) : (rxGoto q s).rxState = q := rfl
@[simp] theorem rxGoto_rxLenLo (q : RxState) (s : State) : (rxGoto q s).rxLenLo = s.rxLenLo := rfl
@[simp] theorem rxGoto_rxLen (q : RxState) (s : State) : (rxGoto q s).rxLen = s.rxLen := rfl
@[simp] theorem rxGoto_rxCount (q : RxState) (s : State) : (rxGoto q s).rxCount = s.rxCount := rfl
@[simp] theorem rxGoto_rxBuf (q : RxState) (s : State) : (rxGoto q s).rxBuf = s.rxBuf := rfl
@[simp] theorem rxGoto_rxCrcLo (q : RxState) (s : State) : (rxGoto q s).rxCrcLo = s.rxCrcLo := rfl
@[simp] theorem rxGoto_lgIdx (q : RxState) (s : State) : (rxGoto q s).lgIdx = s.lgIdx := rfl
@[simp] theorem rxGoto_lgWin (q : RxState) (s : State) : (rxGoto q s).lgWin = s.lgWin := rfl
@[simp] theorem rxGoto_refused (q : RxState) (s : State) : (rxGoto q s).refused = s.refused := rfl
@[simp] theorem rxGoto_lastRefusal (q : RxState) (s : State) : (rxGoto q s).lastRefusal = s.lastRefusal := rfl
@[simp] theorem rxGoto_events (q : RxState) (s : State) : (rxGoto q s).events = s.events := rfl
@[simp] theorem rxGoto_pending (q : RxState) (s : State) : (rxGoto q s).pending = s.pending := rfl

/-! ### s.issue os -/

@[simp] theorem issue_cfg (os : List Operation) (s : State) : (s.issue os).cfg = s.cfg := rfl
@[simp] theorem issue_crcErrLatch (os : List Operation) (s : State) : (s.issue os).crcErrLatch = s.crcErrLatch := rfl
@[simp] theorem issue_crc8Acc (os : List Operation) (s : State) : (s.issue os).crc8Acc = s.crc8Acc := rfl
@[simp] theorem issue_crc16Acc (os : List Operation) (s : State) : (s.issue os).crc16Acc = s.crc16Acc := rfl
@[simp] theorem issue_rxState (os : List Operation) (s : State) : (s.issue os).rxState = s.rxState := rfl
@[simp] theorem issue_rxLenLo (os : List Operation) (s : State) : (s.issue os).rxLenLo = s.rxLenLo := rfl
@[simp] theorem issue_rxLen (os : List Operation) (s : State) : (s.issue os).rxLen = s.rxLen := rfl
@[simp] theorem issue_rxCount (os : List Operation) (s : State) : (s.issue os).rxCount = s.rxCount := rfl
@[simp] theorem issue_rxBuf (os : List Operation) (s : State) : (s.issue os).rxBuf = s.rxBuf := rfl
@[simp] theorem issue_rxCrcLo (os : List Operation) (s : State) : (s.issue os).rxCrcLo = s.rxCrcLo := rfl
@[simp] theorem issue_lgIdx (os : List Operation) (s : State) : (s.issue os).lgIdx = s.lgIdx := rfl
@[simp] theorem issue_lgWin (os : List Operation) (s : State) : (s.issue os).lgWin = s.lgWin := rfl
@[simp] theorem issue_refused (os : List Operation) (s : State) : (s.issue os).refused = s.refused := rfl
@[simp] theorem issue_lastRefusal (os : List Operation) (s : State) : (s.issue os).lastRefusal = s.lastRefusal := rfl
@[simp] theorem issue_events (os : List Operation) (s : State) : (s.issue os).events = s.events := rfl
@[simp] theorem issue_pending (os : List Operation) (s : State) : (s.issue os).pending = s.pending ++ os := rfl

/-! ### reportLatch s -/

theorem reportLatch_eq (s : State) :
    reportLatch s = { s with crcErrLatch := !s.cfg.clearLatchOnReport && s.crcErrLatch } := by
  unfold reportLatch clearLatch
  split <;> simp_all

@[simp] theorem reportLatch_cfg (s : State) : (reportLatch s).cfg = s.cfg := by rw [reportLatch_eq]
@[simp] theorem reportLatch_crcErrLatch (s : State) : (reportLatch s).crcErrLatch = (!s.cfg.clearLatchOnReport && s.crcErrLatch) := by rw [reportLatch_eq]
@[simp] theorem reportLatch_crc8Acc (s : State) : (reportLatch s).crc8Acc = s.crc8Acc := by rw [reportLatch_eq]
@[simp] theorem reportLatch_crc16Acc (s : State) : (reportLatch s).crc16Acc = s.crc16Acc := by rw [reportLatch_eq]
@[simp] theorem reportLatch_rxState (s : State) : (reportLatch s).rxState = s.rxState := by rw [reportLatch_eq]
@[simp] theorem reportLatch_rxLenLo (s : State) : (reportLatch s).rxLenLo = s.rxLenLo := by rw [reportLatch_eq]
@[simp] theorem reportLatch_rxLen (s : State) : (reportLatch s).rxLen = s.rxLen := by rw [reportLatch_eq]
@[simp] theorem reportLatch_rxCount (s : State) : (reportLatch s).rxCount = s.rxCount := by rw [reportLatch_eq]
@[simp] theorem reportLatch_rxBuf (s : State) : (reportLatch s).rxBuf = s.rxBuf := by rw [reportLatch_eq]
@[simp] theorem reportLatch_rxCrcLo (s : State) : (reportLatch s).rxCrcLo = s.rxCrcLo := by rw [reportLatch_eq]
@[simp] theorem reportLatch_lgIdx (s : State) : (reportLatch s).lgIdx = s.lgIdx := by rw [reportLatch_eq]
@[simp] theorem reportLatch_lgWin (s : State) : (reportLatch s).lgWin = s.lgWin := by rw [reportLatch_eq]
@[simp] theorem reportLatch_refused (s : State) : (reportLatch s).refused = s.refused := by rw [reportLatch_eq]
@[simp] theorem reportLatch_lastRefusal (s : State) : (reportLatch s).lastRefusal = s.lastRefusal := by rw [reportLatch_eq]
@[simp] theorem reportLatch_events (s : State) : (reportLatch s).events = s.events := by rw [reportLatch_eq]
@[simp] theorem reportLatch_pending (s : State) : (reportLatch s).pending = s.pending := by rw [reportLatch_eq]

/-! ### resetReceiver s -/

@[simp] theorem resetReceiver_cfg (s : State) : (resetReceiver s).cfg = s.cfg := by
  unfold resetReceiver
  split <;> simp_all
@[simp] theorem resetReceiver_crcErrLatch (s : State) : (resetReceiver s).crcErrLatch = s.crcErrLatch := by
  unfold resetReceiver
  split <;> simp_all
@[simp] theorem resetReceiver_crc8Acc (s : State) : (resetReceiver s).crc8Acc = s.crc8Acc := by
  unfold resetReceiver
  split <;> simp_all
@[simp] theorem resetReceiver_crc16Acc (s : State) : (resetReceiver s).crc16Acc = s.crc16Acc := by
  unfold resetReceiver
  split <;> simp_all
@[simp] theorem resetReceiver_rxState (s : State) :
    (resetReceiver s).rxState = (match s.cfg.format with | .v2 => .awaitHeaderByte0 | .legacy => s.rxState) := by
  unfold resetReceiver
  split <;> simp_all
@[simp] theorem resetReceiver_rxLenLo (s : State) : (resetReceiver s).rxLenLo = s.rxLenLo := by
  unfold resetReceiver
  split <;> simp_all
@[simp] theorem resetReceiver_rxLen (s : State) : (resetReceiver s).rxLen = s.rxLen := by
  unfold resetReceiver
  split <;> simp_all
@[simp] theorem resetReceiver_rxCount (s : State) : (resetReceiver s).rxCount = s.rxCount := by
  unfold resetReceiver
  split <;> simp_all
@[simp] theorem resetReceiver_rxBuf (s : State) : (resetReceiver s).rxBuf = s.rxBuf := by
  unfold resetReceiver
  split <;> simp_all
@[simp] theorem resetReceiver_rxCrcLo (s : State) : (resetReceiver s).rxCrcLo = s.rxCrcLo := by
  unfold resetReceiver
  split <;> simp_all
@[simp] theorem resetReceiver_lgIdx (s : State) :
    (resetReceiver s).lgIdx = (match s.cfg.format with | .v2 => s.lgIdx | .legacy => 0) := by
  unfold resetReceiver
  split <;> simp_all
@[simp] theorem resetReceiver_lgWin (s : State) : (resetReceiver s).lgWin = s.lgWin := by
  unfold resetReceiver
  split <;> simp_all
@[simp] theorem resetReceiver_refused (s : State) : (resetReceiver s).refused = s.refused := by
  unfold resetReceiver
  split <;> simp_all
@[simp] theorem resetReceiver_lastRefusal (s : State) : (resetReceiver s).lastRefusal = s.lastRefusal := by
  unfold resetReceiver
  split <;> simp_all
@[simp] theorem resetReceiver_events (s : State) : (resetReceiver s).events = s.events := by
  unfold resetReceiver
  split <;> simp_all
@[simp] theorem resetReceiver_pending (s : State) : (resetReceiver s).pending = s.pending := by
  unfold resetReceiver
  split <;> simp_all

end Sys2Proof.Machine
end

