-- ==== Sys2Proof/Laws/Ops.lean ====
section
/-! SUPPORT. What each primitive of Machine/Ops.lean and Machine/Operands.lean can do, said once. -/

namespace Sys2Proof.Machine

/-! ### Two-byte assembly -/

theorem le16_toNat (l h : Byte) : (le16 l h).toNat = l.toNat + 256 * h.toNat := by
  have hl := l.isLt
  have hh := h.isLt
  unfold le16
  rw [BitVec.toNat_or, BitVec.toNat_shiftLeft, BitVec.toNat_setWidth, BitVec.toNat_setWidth,
    Nat.mod_eq_of_lt (a := l.toNat) (by omega), Nat.mod_eq_of_lt (a := h.toNat) (by omega),
    Nat.shiftLeft_eq, Nat.mod_eq_of_lt (by omega), Nat.or_comm, Nat.mul_comm h.toNat,
    ← Nat.two_pow_add_eq_or_of_lt (by omega)]
  omega

theorem lo_toNat (v : U16) : (lo v).toNat = v.toNat % 256 := by
  simp [lo]

theorem hi_toNat (v : U16) : (hi v).toNat = v.toNat / 256 := by
  have := v.isLt
  simp only [hi, BitVec.extractLsb'_toNat, Nat.shiftRight_eq_div_pow]
  omega

@[simp] theorem lo_le16 (l h : Byte) : lo (le16 l h) = l := by
  apply BitVec.eq_of_toNat_eq
  have := l.isLt
  rw [lo_toNat, le16_toNat]
  omega

@[simp] theorem hi_le16 (l h : Byte) : hi (le16 l h) = h := by
  apply BitVec.eq_of_toNat_eq
  have := l.isLt
  rw [hi_toNat, le16_toNat]
  omega

@[simp] theorem le16_lo_hi (v : U16) : le16 (lo v) (hi v) = v := by
  apply BitVec.eq_of_toNat_eq
  rw [le16_toNat, lo_toNat, hi_toNat]
  omega

/-- Two words with the same bytes are the same word. -/
theorem le16_eq_iff (l h : Byte) (v : U16) : le16 l h = v ↔ l = lo v ∧ h = hi v :=
  ⟨fun e => by simp [← e], fun ⟨e₁, e₂⟩ => by rw [e₁, e₂, le16_lo_hi]⟩

theorem lengthField_toNat {p : List Byte} (h : p.length ≤ Config.maxPayload) :
    (lengthField p).toNat = p.length := by
  have : p.length ≤ 506 := h
  simp only [lengthField, BitVec.toNat_ofNat]
  omega

/-! ### The payload buffer -/

/-- All that `bufWrite` can answer. -/
theorem bufWrite_cases (buf : Vector Byte Config.maxPayload) (i : U16) (v : Byte) :
    (∃ h : i.toNat < Config.maxPayload, bufWrite buf i v = some (buf.set i.toNat v h)) ∨
      (Config.maxPayload ≤ i.toNat ∧ bufWrite buf i v = none) := by
  unfold bufWrite
  split
  · exact .inl ⟨‹_›, rfl⟩
  · exact .inr ⟨by omega, rfl⟩

theorem bufWrite_eq (buf : Vector Byte Config.maxPayload) (i : U16) (v : Byte) (h : i.toNat < Config.maxPayload) :
    bufWrite buf i v = some (buf.setIfInBounds i.toNat v) := by
  obtain ⟨_, e⟩ | ⟨h', _⟩ := bufWrite_cases buf i v
  · rw [e]
    congr 1
    ext j hj
    simp [Vector.getElem_set, Vector.getElem_setIfInBounds]
  · omega

/-- All that `bufSlice` can answer. -/
theorem bufSlice_cases (buf : Vector Byte Config.maxPayload) (n : U16) :
    (n.toNat ≤ Config.maxPayload ∧ bufSlice buf n = some (buf.toList.take n.toNat)) ∨
      (Config.maxPayload < n.toNat ∧ bufSlice buf n = none) := by
  unfold bufSlice
  split
  · exact .inl ⟨‹_›, rfl⟩
  · exact .inr ⟨by omega, rfl⟩

theorem bufSlice_eq (buf : Vector Byte Config.maxPayload) (n : U16) (h : n.toNat ≤ Config.maxPayload) :
    bufSlice buf n = some (buf.toList.take n.toNat) := if_pos h

theorem bufSlice_length {buf : Vector Byte Config.maxPayload} {n : U16} {p : List Byte}
    (h : bufSlice buf n = some p) : p.length = n.toNat := by
  obtain ⟨hn, e⟩ | ⟨_, e⟩ := bufSlice_cases buf n
  · rw [h] at e
    cases e
    simp [hn]
  · simp [h] at e

/-! ### The legacy window -/

/-- A position that stores no byte is the trailer's. -/
theorem lgIdx_eq_trailer {i : Fin Config.legacyCmdLen} (h : ¬i.val < Config.legacyContentLen) : i = 7 := by
  have h₁ : i.val < 8 := i.isLt
  have h₂ : ¬i.val < 7 := h
  exact Fin.ext (show i.val = 7 by omega)

/-- The window after a write at a stored index, byte by byte. -/
theorem winWrite_getElem? (win : Vector Byte Config.legacyContentLen) (i : Fin Config.legacyCmdLen) (v : Byte)
    (h : i.val < Config.legacyContentLen) (j : Nat) :
    (winWrite win i v)[j]? = if i.val = j then some v else win[j]? := by
  rw [winWrite, dif_pos h, Vector.getElem?_set]

theorem winWrite_toList (win : Vector Byte Config.legacyContentLen) (i : Fin Config.legacyCmdLen) (v : Byte)
    (h : i.val < Config.legacyContentLen) :
    (winWrite win i v).toList = win.toList.set i.val v := by
  rw [winWrite, dif_pos h, Vector.toList_set]

/-! ### The operation queue -/

@[simp] theorem takeOperation_nil {s : State} (h : s.pending = []) : takeOperation s = none := by
  simp [takeOperation, h]

theorem takeOperation_cons {s : State} {o : Operation} {rest : List Operation} (h : s.pending = o :: rest) :
    takeOperation s = some (o, { s with pending := rest }) := by
  simp [takeOperation, h]

end Sys2Proof.Machine
end

