-- ==== Sys2Proof/Laws/Crc.lean ====
section
/-! SUPPORT. The CRC functions as folds, and the algebra of one pass of their loops. -/

namespace Sys2Proof.Machine

@[simp] theorem crc8_nil : crc8 [] = Config.crc8Init := rfl

/-- One more byte at the end of the buffer is one more update. -/
theorem crc8_append_byte (m : List Byte) (b : Byte) : crc8 (m ++ [b]) = crc8Update (crc8 m) b := by
  simp [crc8]

@[simp] theorem crc16_nil : crc16 [] = Config.crc16Init := rfl

/-- One more byte at the end of the buffer is one more update. -/
theorem crc16_append_byte (m : List Byte) (b : Byte) : crc16 (m ++ [b]) = crc16Update (crc16 m) b := by
  simp [crc16]

@[simp] theorem crc8Shift_zero : crc8Shift 0 = 0 := by decide

@[simp] theorem crc16Shift_zero : crc16Shift 0 = 0 := by decide

theorem xor_right_swap {n : Nat} (a b c : BitVec n) : a ^^^ b ^^^ c = a ^^^ c ^^^ b := by
  rw [BitVec.xor_assoc, BitVec.xor_comm b, ← BitVec.xor_assoc]

theorem xor_pair_cancel {n : Nat} (a b c : BitVec n) : a ^^^ c ^^^ (b ^^^ c) = a ^^^ b := by
  rw [xor_right_swap, BitVec.xor_assoc, BitVec.xor_assoc, BitVec.xor_self, BitVec.xor_zero]

/-- One pass is linear over XOR. -/
theorem crc8Shift_xor (x y : Byte) : crc8Shift (x ^^^ y) = crc8Shift x ^^^ crc8Shift y := by
  unfold crc8Shift
  rw [BitVec.getLsbD_xor, BitVec.shiftLeft_xor_distrib]
  cases x.getLsbD 7 <;> cases y.getLsbD 7
  · rfl
  · exact BitVec.xor_assoc ..
  · simpa using xor_right_swap ..
  · simpa using (xor_pair_cancel ..).symm

/-- One pass is linear over XOR. -/
theorem crc16Shift_xor (x y : U16) : crc16Shift (x ^^^ y) = crc16Shift x ^^^ crc16Shift y := by
  unfold crc16Shift
  rw [BitVec.getLsbD_xor, BitVec.shiftLeft_xor_distrib]
  cases x.getLsbD 15 <;> cases y.getLsbD 15
  · rfl
  · exact BitVec.xor_assoc ..
  · simpa using xor_right_swap ..
  · simpa using (xor_pair_cancel ..).symm

/-- Any number of passes is linear over XOR. -/
theorem crc8Shift_iterate_xor (n : Nat) (x y : Byte) :
    crc8Shift^[n] (x ^^^ y) = crc8Shift^[n] x ^^^ crc8Shift^[n] y := by
  induction n generalizing x y with
  | zero => rfl
  | succ n ih => simp only [Function.iterate_succ_apply, crc8Shift_xor, ih]

/-- Any number of passes is linear over XOR. -/
theorem crc16Shift_iterate_xor (n : Nat) (x y : U16) :
    crc16Shift^[n] (x ^^^ y) = crc16Shift^[n] x ^^^ crc16Shift^[n] y := by
  induction n generalizing x y with
  | zero => rfl
  | succ n ih => simp only [Function.iterate_succ_apply, crc16Shift_xor, ih]

end Sys2Proof.Machine
end

