-- ==== Sys2Proof/Laws/Decode.lean ====
section
/-! SUPPORT. The fields of an operation word as numbers, the operation map read both ways, and when the decoder answers an
operation. -/

namespace Sys2Proof

/-! ### The word and its fields -/

theorem opField_toNat (w : U16) : (opField w).toNat = w.toNat / 4096 := by
  have := w.isLt
  simp only [opField, BitVec.extractLsb'_toNat, Nat.shiftRight_eq_div_pow]
  omega

theorem zField_toNat (w : U16) : (zField w).toNat = w.toNat / 256 % 16 := by
  simp only [zField, BitVec.extractLsb'_toNat, Nat.shiftRight_eq_div_pow]

theorem immField_toNat (w : U16) : (immField w).toNat = w.toNat % 256 := by
  simp only [immField, BitVec.extractLsb'_toNat, Nat.shiftRight_eq_div_pow]
  omega

theorem packWord_toNat (op z : BitVec 4) (imm : Byte) :
    (packWord op z imm).toNat = 4096 * op.toNat + 256 * z.toNat + imm.toNat := by
  have hz := z.isLt
  have hi := imm.isLt
  simp only [packWord, BitVec.toNat_append, Nat.shiftLeft_eq]
  rw [← Nat.shiftLeft_eq (op.toNat), ← Nat.shiftLeft_add_eq_or_of_lt hz, ← Nat.shiftLeft_eq,
    ← Nat.shiftLeft_add_eq_or_of_lt hi]
  simp only [Nat.shiftLeft_eq]
  omega

@[simp] theorem opField_packWord (op z : BitVec 4) (imm : Byte) : opField (packWord op z imm) = op := by
  apply BitVec.eq_of_toNat_eq
  have := z.isLt
  have := imm.isLt
  rw [opField_toNat, packWord_toNat]
  omega

@[simp] theorem zField_packWord (op z : BitVec 4) (imm : Byte) : zField (packWord op z imm) = z := by
  apply BitVec.eq_of_toNat_eq
  have := z.isLt
  have := imm.isLt
  rw [zField_toNat, packWord_toNat]
  omega

@[simp] theorem immField_packWord (op z : BitVec 4) (imm : Byte) : immField (packWord op z imm) = imm := by
  apply BitVec.eq_of_toNat_eq
  have := imm.isLt
  rw [immField_toNat, packWord_toNat]
  omega

/-- A word is its three fields. -/
theorem packWord_fields (w : U16) : packWord (opField w) (zField w) (immField w) = w := by
  apply BitVec.eq_of_toNat_eq
  rw [packWord_toNat, opField_toNat, zField_toNat, immField_toNat]
  omega

/-! ### The operation map -/

@[simp] theorem ofCode_code (k : Opcode) : Opcode.ofCode k.code = some k := by cases k <;> rfl

/-- The map has one row a code. -/
theorem code_of_ofCode {c : BitVec 4} {k : Opcode} (h : Opcode.ofCode c = some k) : k.code = c := by
  have key : ∀ c : BitVec 4, ∀ k ∈ Opcode.ofCode c, k.code = c := by decide
  exact key c k h

/-- The row's checks on an operation's own operands are its well-formedness. -/
theorem legal_iff_wellFormed (f : Format) (i : Instr) :
    (i.opcode.legalIn f = true ∧ i.opcode.lengthOk (i.data.getD []).length = true) ↔ i.wellFormed f = true := by
  cases i <;> simp only [Instr.opcode, Opcode.legalIn, Opcode.lengthOk, Instr.data, Instr.wellFormed,
    Option.getD_some, Bool.and_eq_true, and_self, and_assoc] <;> exact Iff.rfl

/-- An operation built from a row belongs to it. -/
@[simp] theorem opcode_build (k : Opcode) (imm : Byte) (data : List Byte) : (k.build imm data).opcode = k := by
  cases k <;> rfl

/-! ### The decoder -/

/-- When the decoder answers an operation, and which. -/
theorem decode_ok_iff (f : Format) (o : Operation) (i : Instr) :
    decode f o = .ok i ↔
      zField o.word = 0 ∧ ∃ k, Opcode.ofCode (opField o.word) = some k ∧
        (k.takesByte = true ∨ immField o.word = 0) ∧ o.data.isSome = k.takesData ∧ k.legalIn f = true ∧
        k.lengthOk (o.data.getD []).length = true ∧ k.build (immField o.word) (o.data.getD []) = i := by
  unfold decode
  by_cases hz : zField o.word = 0
  · rw [if_neg (by simpa using hz)]
    cases hk : Opcode.ofCode (opField o.word) with
    | none => simp
    | some k =>
      by_cases h₁ : k.takesByte = false ∧ immField o.word ≠ 0
      · simp only [h₁]
        simp_all
      · have h₁' : k.takesByte = true ∨ immField o.word = 0 := by
          by_contra hc
          simp_all
        simp only [if_neg h₁]
        by_cases h₂ : o.data.isSome = k.takesData
        · rw [if_neg (by simpa using h₂)]
          cases h₃ : k.legalIn f
          · simp_all
          · cases h₄ : k.lengthOk (o.data.getD []).length <;> simp_all
        · rw [if_pos h₂]
          simp_all
  · rw [if_pos hz]
    exact iff_of_false (by simp) fun h => hz h.1

end Sys2Proof
end

