-- ==== Sys2Proof/Laws/Rx.lean ====
section
/-! SUPPORT. All that RX_BYTE can do: one case a row of the next-state tables 41_rx_v2.md R81 and 42_rx_legacy.md R89. -/

namespace Sys2Proof.Machine

/-- What one received byte can do to a v2 instance that answers a next state (41_rx_v2.md R81). -/
theorem rxByteV2_cases {b : Byte} {s t : State} (h : rxByteV2 b s = .next t) :
    (s.rxState = .awaitHeaderByte0 ∧ t = rxHeader0 b s) ∨
    (s.rxState = .awaitHeaderByte1 ∧ t = rxHeader1 b s) ∨
    (s.rxState = .awaitLengthLow ∧ t = rxLengthLow b s) ∨
    (s.rxState = .awaitLengthHigh ∧ t = rxLengthHigh b s) ∨
    (s.rxState = .awaitPayload ∧ s.rxCount.toNat < Config.maxPayload ∧
      t = rxGoto (if s.rxCount + 1 = s.rxLen then .awaitCrcLow else .awaitPayload)
        { s with rxBuf := s.rxBuf.setIfInBounds s.rxCount.toNat b, rxCount := s.rxCount + 1 }) ∨
    (s.rxState = .awaitCrcLow ∧ t = rxCrcLow b s) ∨
    (s.rxState = .awaitCrcHigh ∧ s.rxLen.toNat ≤ Config.maxPayload ∧
      t = rxGoto .awaitHeaderByte0
        (if le16 s.rxCrcLo b = frameCrc s.rxLen (s.rxBuf.toList.take s.rxLen.toNat) then
          emit (.rxFrameV2 (s.rxBuf.toList.take s.rxLen.toNat)) s else s)) := by
  unfold rxByteV2 at h
  cases hs : s.rxState <;> simp only [hs] at h
  case awaitHeaderByte0 => cases h; simp
  case awaitHeaderByte1 => cases h; simp
  case awaitLengthLow => cases h; simp
  case awaitLengthHigh => cases h; simp
  case awaitPayload =>
    unfold rxPayload at h
    by_cases hc : s.rxCount.toNat < Config.maxPayload
    · rw [bufWrite_eq _ _ _ hc] at h
      cases h
      simp [hc, hs]
    · have : bufWrite s.rxBuf s.rxCount b = none := dif_neg hc
      simp [this] at h
  case awaitCrcLow => cases h; simp
  case awaitCrcHigh =>
    unfold rxCrcHigh at h
    by_cases hl : s.rxLen.toNat ≤ Config.maxPayload
    · rw [bufSlice_eq _ _ hl] at h
      simp only [reduceCtorEq, false_and, true_and, false_or]
      refine ⟨hl, ?_⟩
      by_cases he : le16 s.rxCrcLo b = frameCrc s.rxLen (s.rxBuf.toList.take s.rxLen.toNat)
      · simpa [he] using h.symm
      · simpa [he] using h.symm
    · have : bufSlice s.rxBuf s.rxLen = none := if_neg hl
      simp [this] at h

/-- What one received byte does to a legacy instance (42_rx_legacy.md R89). -/
theorem rxByteLegacy_cases (b : Byte) (s : State) :
    (s.lgIdx.val < Config.legacyContentLen ∧
      rxByteLegacy b s = { s with lgWin := winWrite s.lgWin s.lgIdx b, lgIdx := s.lgIdx + 1 }) ∨
    (s.lgIdx = 7 ∧ b = crc8 s.lgWin.toList ∧
      rxByteLegacy b s = { s with events := s.events ++ [.rxCmdLegacy s.lgWin.toList], lgIdx := 0 }) ∨
    (s.lgIdx = 7 ∧ b ≠ crc8 s.lgWin.toList ∧ rxByteLegacy b s = { s with crcErrLatch := true, lgIdx := 0 }) := by
  by_cases hi : s.lgIdx.val < Config.legacyContentLen
  · exact .inl ⟨hi, if_pos hi⟩
  · have h7 := lgIdx_eq_trailer hi
    rw [show rxByteLegacy b s = rxWindowTrailer b s from if_neg hi, rxWindowTrailer]
    by_cases hb : b = crc8 s.lgWin.toList
    · exact .inr (.inl ⟨h7, hb, by simp [← hb, emit]⟩)
    · exact .inr (.inr ⟨h7, hb, by simp [hb, setLatch]⟩)

/-- When one received byte stops a v2 instance: only at an index of `rx_buf` that does not exist. -/
theorem rxByteV2_fault_iff (b : Byte) (s : State) :
    rxByteV2 b s = .fault .rxBufOverrun ↔
      (s.rxState = .awaitPayload ∧ Config.maxPayload ≤ s.rxCount.toNat) ∨
      (s.rxState = .awaitCrcHigh ∧ Config.maxPayload < s.rxLen.toNat) := by
  unfold rxByteV2
  cases hs : s.rxState <;> simp only [reduceCtorEq, false_and, or_self, false_or, or_false, true_and]
  case awaitPayload =>
    unfold rxPayload
    obtain ⟨hc, e⟩ | ⟨hc, e⟩ := bufWrite_cases s.rxBuf s.rxCount b
    · simpa [e] using hc
    · simp [e, hc]
  case awaitCrcHigh =>
    unfold rxCrcHigh
    obtain ⟨hl, e⟩ | ⟨hl, e⟩ := bufSlice_cases s.rxBuf s.rxLen
    · rw [e]
      simp only []
      split <;> simp [hl]
    · simp [e, hl]

end Sys2Proof.Machine
end

