-- ==== Sys2Proof/Laws/Exec.lean ====
section
/-! SUPPORT. All that an operation and a step can do, said once, and how sequences of operations compose. -/

namespace Sys2Proof.Machine

/-! ### One operation -/

/-- All that TX_SEND_V2 can do (43_tx_framer.md R91). -/
theorem execTxSendV2_cases (p : List Byte) (s : State) :
    (s.cfg.format ≠ .v2 ∧ execTxSendV2 p s = .next (refuse .wrongFormat s)) ∨
    (s.cfg.format = .v2 ∧ ¬(Config.minPayload ≤ p.length ∧ p.length ≤ Config.maxPayload) ∧
      execTxSendV2 p s = .next (refuse .txLength s)) ∨
    (s.cfg.format = .v2 ∧ (Config.minPayload ≤ p.length ∧ p.length ≤ Config.maxPayload) ∧
      execTxSendV2 p s = .next (emit (.txBytes (v2Frame p)) s)) := by
  unfold execTxSendV2
  by_cases hf : s.cfg.format = .v2
  · by_cases hl : p.length < Config.minPayload ∨ p.length > Config.maxPayload
    · exact .inr (.inl ⟨hf, by omega, by rw [if_neg (by simpa using hf), if_pos hl]⟩)
    · exact .inr (.inr ⟨hf, by omega, by rw [if_neg (by simpa using hf), if_neg hl]⟩)
  · exact .inl ⟨hf, by simp [hf]⟩

/-- All that TX_SEND_LEGACY can do (43_tx_framer.md R94). -/
theorem execTxSendLegacy_cases (body : List Byte) (s : State) :
    (s.cfg.format ≠ .legacy ∧ execTxSendLegacy body s = .next (refuse .wrongFormat s)) ∨
    (s.cfg.format = .legacy ∧ body.length + 1 ≠ Config.legacyRspLen ∧
      execTxSendLegacy body s = .next (refuse .txLength s)) ∨
    (s.cfg.format = .legacy ∧ body.length + 1 = Config.legacyRspLen ∧
      execTxSendLegacy body s = .next (reportLatch (emit (.txBytes (legacyResponseFrame body)) s))) := by
  unfold execTxSendLegacy
  by_cases hf : s.cfg.format = .legacy
  · by_cases hl : body.length ≠ Config.legacyRspLen - 1
    · exact .inr (.inl ⟨hf, by omega, by rw [if_neg (by simpa using hf), if_pos hl]⟩)
    · exact .inr (.inr ⟨hf, (congrArg (· + 1) (not_not.1 hl)), by rw [if_neg (by simpa using hf), if_neg hl]⟩)
  · exact .inl ⟨hf, by simp [hf]⟩

/-- No operation is without a meaning. -/
theorem exec_ne_refused (i : Instr) (s : State) (r : Refusal) : exec i s ≠ .refused r := by
  cases i
  case rxByte b =>
    show execRxByte b s ≠ _
    unfold execRxByte rxByteV2 rxPayload rxCrcHigh
    split <;> (try split) <;> (try split) <;> (try split) <;> simp
  case txSendV2 p => obtain ⟨_, e⟩ | ⟨_, _, e⟩ | ⟨_, _, e⟩ := execTxSendV2_cases p s <;> simp [exec, e]
  case txSendLegacy p => obtain ⟨_, e⟩ | ⟨_, _, e⟩ | ⟨_, _, e⟩ := execTxSendLegacy_cases p s <;> simp [exec, e]
  all_goals exact nofun

/-! ### One step -/

/-- All that a step can do: wait, refuse, or run the operation it decoded. -/
theorem step_cases (s : State) :
    (s.pending = [] ∧ step s = .next s) ∨
    (∃ o rest r, s.pending = o :: rest ∧ decode s.cfg.format o = .error r ∧
      step s = .next (refuse r { s with pending := rest })) ∨
    (∃ o rest i, s.pending = o :: rest ∧ decode s.cfg.format o = .ok i ∧
      step s = exec i { s with pending := rest }) := by
  unfold step
  cases hp : s.pending with
  | nil => exact .inl ⟨rfl, by simp [takeOperation_nil hp]⟩
  | cons o rest =>
    rw [takeOperation_cons hp]
    cases hd : decode s.cfg.format o with
    | error r => exact .inr (.inl ⟨o, rest, r, rfl, hd, by simp [hd]⟩)
    | ok i => exact .inr (.inr ⟨o, rest, i, rfl, hd, by simp [hd]⟩)

/-! ### Sequences -/

@[simp] theorem execAll_nil (s : State) : execAll [] s = .next s := rfl

theorem execAll_cons {i : Instr} {is : List Instr} {s t : State} (h : exec i s = .next t) :
    execAll (i :: is) s = execAll is t := by
  simp [execAll, h]

/-- A sequence run in two parts. -/
theorem execAll_append {is js : List Instr} {s t : State} (h : execAll is s = .next t) :
    execAll (is ++ js) s = execAll js t := by
  induction is generalizing s with
  | nil => cases h; rfl
  | cons i is ih =>
    simp only [execAll, List.cons_append] at h ⊢
    cases he : exec i s with
    | next u => rw [he] at h; exact ih h
    | fault r => simp [he] at h
    | refused r => simp [he] at h

@[simp] theorem feed_nil (s : State) : feed [] s = .next s := rfl

theorem feed_cons {b : Byte} {bs : List Byte} {s t : State} (h : exec (.rxByte b) s = .next t) :
    feed (b :: bs) s = feed bs t := execAll_cons h

/-- A stream fed in two parts. -/
theorem feed_append {bs cs : List Byte} {s t : State} (h : feed bs s = .next t) : feed (bs ++ cs) s = feed cs t := by
  unfold feed at *
  rw [List.map_append]
  exact execAll_append h

end Sys2Proof.Machine
end

