-- ==== Sys2Proof/Laws/PerInstr.lean ====
section
/-! SUPPORT. Facts made per operation, one lemma a constructor of Instr.

`MapRow`: an operation's encoding is a word of its row of the operation map (30_encoding.md R50, R51): its `op`, a zero
`z`, the byte operand in `imm8` only where the row takes one, and `data` exactly where the row takes it. -/

namespace Sys2Proof.Laws.MapRow

def Statement (i : Instr) : Prop :=
  opField (encode i).word = i.opcode.code ∧ zField (encode i).word = 0 ∧
    (i.opcode.takesByte = false → immField (encode i).word = 0) ∧ (encode i).data.isSome = i.opcode.takesData

theorem rxByte (b : Byte) : Statement (.rxByte b) := by
  simp [Statement, encode, Instr.opcode, Opcode.takesByte, Opcode.takesData, Instr.data]

theorem txSendV2 (data : List Byte) : Statement (.txSendV2 data) := by
  simp [Statement, encode, Instr.opcode, Opcode.takesData, Instr.data, Instr.imm]

theorem txSendLegacy (data : List Byte) : Statement (.txSendLegacy data) := by
  simp [Statement, encode, Instr.opcode, Opcode.takesData, Instr.data, Instr.imm]

theorem crc8Init : Statement .crc8Init := by unfold Statement; decide

theorem crc8Byte (b : Byte) : Statement (.crc8Byte b) := by
  simp [Statement, encode, Instr.opcode, Opcode.takesByte, Opcode.takesData, Instr.data]

theorem crc16Init : Statement .crc16Init := by unfold Statement; decide

theorem crc16Byte (b : Byte) : Statement (.crc16Byte b) := by
  simp [Statement, encode, Instr.opcode, Opcode.takesByte, Opcode.takesData, Instr.data]

theorem clearCrcErr : Statement .clearCrcErr := by unfold Statement; decide

theorem reset : Statement .reset := by unfold Statement; decide

end Sys2Proof.Laws.MapRow
end

