-- ==== Sys2Proof/Laws/Safety.lean ====
section
/-! SUPPORT. The registers the spec leaves unspecified at reset, replaced: one lemma a field. -/

namespace Sys2Proof.Machine

@[simp] theorem withUnspecified_cfg (u : Unspecified) (s : State) :
    (s.withUnspecified u).cfg = s.cfg := rfl

@[simp] theorem withUnspecified_crcErrLatch (u : Unspecified) (s : State) :
    (s.withUnspecified u).crcErrLatch = s.crcErrLatch := rfl

@[simp] theorem withUnspecified_crc8Acc (u : Unspecified) (s : State) :
    (s.withUnspecified u).crc8Acc = s.crc8Acc := rfl

@[simp] theorem withUnspecified_crc16Acc (u : Unspecified) (s : State) :
    (s.withUnspecified u).crc16Acc = s.crc16Acc := rfl

@[simp] theorem withUnspecified_rxState (u : Unspecified) (s : State) :
    (s.withUnspecified u).rxState = s.rxState := rfl

@[simp] theorem withUnspecified_lgIdx (u : Unspecified) (s : State) :
    (s.withUnspecified u).lgIdx = s.lgIdx := rfl

@[simp] theorem withUnspecified_refused (u : Unspecified) (s : State) :
    (s.withUnspecified u).refused = s.refused := rfl

@[simp] theorem withUnspecified_lastRefusal (u : Unspecified) (s : State) :
    (s.withUnspecified u).lastRefusal = s.lastRefusal := rfl

@[simp] theorem withUnspecified_events (u : Unspecified) (s : State) :
    (s.withUnspecified u).events = s.events := rfl

@[simp] theorem withUnspecified_pending (u : Unspecified) (s : State) :
    (s.withUnspecified u).pending = s.pending := rfl

@[simp] theorem withUnspecified_rxLenLo (u : Unspecified) (s : State) :
    (s.withUnspecified u).rxLenLo = u.rxLenLo := rfl

@[simp] theorem withUnspecified_rxLen (u : Unspecified) (s : State) :
    (s.withUnspecified u).rxLen = u.rxLen := rfl

@[simp] theorem withUnspecified_rxCount (u : Unspecified) (s : State) :
    (s.withUnspecified u).rxCount = u.rxCount := rfl

@[simp] theorem withUnspecified_rxBuf (u : Unspecified) (s : State) :
    (s.withUnspecified u).rxBuf = u.rxBuf := rfl

@[simp] theorem withUnspecified_rxCrcLo (u : Unspecified) (s : State) :
    (s.withUnspecified u).rxCrcLo = u.rxCrcLo := rfl

@[simp] theorem withUnspecified_lgWin (u : Unspecified) (s : State) :
    (s.withUnspecified u).lgWin = u.lgWin := rfl

@[simp] theorem unspecified_withUnspecified (u : Unspecified) (s : State) :
    (s.withUnspecified u).unspecified = u := rfl

@[simp] theorem withUnspecified_unspecified (s : State) : s.withUnspecified s.unspecified = s := rfl

@[simp] theorem withUnspecified_twice (u v : Unspecified) (s : State) :
    (s.withUnspecified u).withUnspecified v = s.withUnspecified v := rfl

end Sys2Proof.Machine
end

