-- ==== Sys2Proof/Tests/Slice0.lean ====
section
/-! SUPPORT. The model's own tests: ill-formed operations refused, words written out from the spec, single steps from
the vectors of 95_test_vectors.md (each cited by its number there), and a witness of the hypotheses of every statement
that has some. -/

set_option maxRecDepth 20000

namespace Sys2Proof.Machine.Tests

/-! ### Helpers -/

/-- The next state of an outcome. -/
def nextOf : Host.Outcome State Fault Refusal → Option State
  | .next t => some t
  | .fault _ => none
  | .refused _ => none

/-- A v2 instance in receive state `q`. -/
def v2At (q : RxState) : State := { State.resetFor ⟨.v2, false⟩ with rxState := q }

/-- A legacy instance at window position `i`, with the latch `l` and CLEAR_LATCH_ON_REPORT `c`. -/
def legacyAt (i : Fin Config.legacyCmdLen) (l c : Bool) : State :=
  { State.resetFor ⟨.legacy, c⟩ with lgIdx := i, crcErrLatch := l }

/-- A v2 instance that waits for payload byte `c` of `n`. -/
def payloadAt (c n : U16) : State := { v2At .awaitPayload with rxCount := c, rxLen := n }

/-- The last state of vector V2-1 before its last byte: payload 01, CRC low byte 8D. -/
def beforeLastByte : State :=
  { v2At .awaitCrcHigh with rxLen := 1, rxCount := 1, rxCrcLo := 0x8D, rxBuf := (Vector.replicate 506 0).set 0 0x01 }

/-- `n` bytes. -/
def bytes (n : Nat) : List Byte := List.replicate n 0x5A

/-! ### Well-formedness: one ill-formed operation for each check -/

theorem test_wellFormed_accepts :
    (Instr.txSendV2 (bytes 1)).wellFormed .v2 = true ∧ (Instr.txSendV2 (bytes 506)).wellFormed .v2 = true ∧
      (Instr.txSendLegacy (bytes 23)).wellFormed .legacy = true := by decide

theorem test_wellFormed_refuses_v2_send_in_legacy : (Instr.txSendV2 (bytes 1)).wellFormed .legacy = false := by decide

theorem test_wellFormed_refuses_empty_payload : (Instr.txSendV2 []).wellFormed .v2 = false := by decide

theorem test_wellFormed_refuses_507_bytes : (Instr.txSendV2 (bytes 507)).wellFormed .v2 = false := by decide

theorem test_wellFormed_refuses_legacy_send_in_v2 : (Instr.txSendLegacy (bytes 23)).wellFormed .v2 = false := by decide

theorem test_wellFormed_refuses_22_and_24_bytes :
    (Instr.txSendLegacy (bytes 22)).wellFormed .legacy = false ∧
      (Instr.txSendLegacy (bytes 24)).wellFormed .legacy = false := by decide

/-! ### Words written out bit by bit from 30_encoding.md R50 and R51, and the table of 95_test_vectors.md 2.7 -/

theorem test_decode_rx_byte : decode .v2 ⟨0b0001_0000_10101010, none⟩ = .ok (.rxByte 0xAA) := by decide

theorem test_decode_tx_send_v2 :
    decode .v2 ⟨0b0010_0000_00000000, some [1, 2, 3]⟩ = .ok (.txSendV2 [1, 2, 3]) := by decide

theorem test_decode_tx_send_legacy :
    decode .legacy ⟨0b0011_0000_00000000, some (bytes 23)⟩ = .ok (.txSendLegacy (bytes 23)) := by decide

theorem test_decode_crc8_init : decode .legacy ⟨0b0100_0000_00000000, none⟩ = .ok .crc8Init := by decide

theorem test_decode_crc8_byte : decode .v2 ⟨0b0101_0000_00000001, none⟩ = .ok (.crc8Byte 0x01) := by decide

theorem test_decode_crc16_init : decode .v2 ⟨0b0110_0000_00000000, none⟩ = .ok .crc16Init := by decide

theorem test_decode_crc16_byte : decode .v2 ⟨0b0111_0000_01010110, none⟩ = .ok (.crc16Byte 0x56) := by decide

theorem test_decode_clear_crc_err : decode .legacy ⟨0b1000_0000_00000000, none⟩ = .ok .clearCrcErr := by decide

theorem test_decode_reset : decode .v2 ⟨0b1111_0000_00000000, none⟩ = .ok .reset := by decide

/-- The refusals of 95_test_vectors.md 2.7 on the word alone. -/
theorem test_decode_refuses_words :
    decode .v2 ⟨0x0000, none⟩ = .error .reservedOp ∧ decode .legacy ⟨0x9000, none⟩ = .error .reservedOp ∧
      decode .v2 ⟨0x1100, none⟩ = .error .nonzeroZ ∧ decode .v2 ⟨0x4F00, none⟩ = .error .nonzeroZ ∧
      decode .v2 ⟨0x4001, none⟩ = .error .nonzeroImm ∧ decode .legacy ⟨0xF0FF, none⟩ = .error .nonzeroImm := by decide

/-- The refusals of 95_test_vectors.md 2.7 that look at the operand. -/
theorem test_decode_refuses_operands :
    decode .v2 ⟨0x8000, some [0]⟩ = .error .dataMismatch ∧ decode .v2 ⟨0x2000, none⟩ = .error .dataMismatch ∧
      decode .legacy ⟨0x2000, some [0]⟩ = .error .wrongFormat ∧ decode .v2 ⟨0x2000, some []⟩ = .error .txLength ∧
      decode .v2 ⟨0x2000, some (bytes 507)⟩ = .error .txLength ∧
      decode .legacy ⟨0x3000, some (bytes 22)⟩ = .error .txLength := by decide

/-- Table words decode, an operand from the bits above bit 15, and a step runs what they spell (log 6). -/
theorem test_table_words :
    decodeTableWord 16 0x1055 = some (.rxByte 0x55) ∧ decodeTableWord 24 0x072000 = some (.txSendV2 [0x07]) ∧
      decodeTableWord 16 0x3000 = some (.txSendLegacy (List.replicate 23 0)) ∧ decodeTableWord 16 0x9000 = none ∧
      (nextOf (step (State.reset.withFetchWord 16 0x5001))).map State.crc8Acc = some 0x07 := by decide

/-! ### Single operations -/

/-- V2-1, its last byte. -/
theorem test_rx_byte_v2_delivers :
    (nextOf (exec (.rxByte 0xEB) beforeLastByte)).map (fun t => (t.events, t.rxState)) =
      some ([.rxFrameV2 [0x01]], .awaitHeaderByte0) := by decide

/-- LG-2, its last byte, with the window of LG-1. -/
theorem test_rx_byte_legacy_sets_latch :
    (nextOf (exec (.rxByte 0xE1) { legacyAt 7 false false with lgWin := #v[0x01, 0xF0, 0, 0, 0, 0, 0] })).map
      (fun t => (t.events, t.crcErrLatch, t.lgIdx)) = some ([], true, 0) := by decide

/-- TX-1. -/
theorem test_tx_send_v2_frame :
    (nextOf (exec (.txSendV2 [0x01, 0x02, 0x03]) (v2At .awaitHeaderByte0))).map State.events =
      some [.txBytes [0xAA, 0xBB, 0x03, 0x00, 0x01, 0x02, 0x03, 0xEF, 0x9E]] := by decide

/-- TX-8: the reassembler does not move. -/
theorem test_tx_send_v2_leaves_receiver :
    (nextOf (exec (.txSendV2 [0x01, 0x02, 0x03]) (payloadAt 1 2))).map (fun t => (t.rxState, t.rxCount)) =
      some (.awaitPayload, 1) := by decide

/-- TX-6. -/
theorem test_tx_send_legacy_keeps_latch :
    (nextOf (exec (.txSendLegacy (0x01 :: List.replicate 22 0)) (legacyAt 0 true false))).map
      (fun t => (t.events, t.crcErrLatch)) = some ([.txBytes (0x01 :: List.replicate 22 0 ++ [0xB9])], true) := by decide

/-- TX-7. -/
theorem test_tx_send_legacy_clears_latch :
    (nextOf (exec (.txSendLegacy (0x01 :: List.replicate 22 0)) (legacyAt 0 true true))).map State.crcErrLatch =
      some false := by decide

/-- CRC-4. -/
theorem test_crc8_init :
    (nextOf (exec .crc8Init { State.reset with crc8Acc := 0x5A })).map State.crc8Acc = some 0x00 := by decide

/-- CRC-3. -/
theorem test_crc8_byte :
    (nextOf (exec (.crc8Byte 0x34) { State.reset with crc8Acc := 0x12 })).map State.crc8Acc = some 0xF2 := by decide

/-- The corner case of 90_conflicts.md C3: the bit is tested before the shift. -/
theorem test_crc8_byte_tests_before_shift :
    (nextOf (exec (.crc8Byte 0x80) State.reset)).map State.crc8Acc = some 0x89 := by decide

/-- CRC-8. -/
theorem test_crc16_init :
    (nextOf (exec .crc16Init { State.reset with crc16Acc := 0x1234 })).map State.crc16Acc = some 0xFFFF := by decide

/-- CRC-7. -/
theorem test_crc16_byte :
    (nextOf (exec (.crc16Byte 0x56) { State.reset with crc16Acc := 0x1234 })).map State.crc16Acc = some 0x3C40 := by
  decide

/-- CRC-9: the reassembler does not move. -/
theorem test_crc16_byte_leaves_receiver :
    (nextOf (exec (.crc16Byte 0x12) (payloadAt 0 1))).map (fun t => (t.crc16Acc, t.rxState)) =
      some (0xD383, .awaitPayload) := by decide

/-- CT-1. -/
theorem test_clear_crc_err :
    (nextOf (exec .clearCrcErr (legacyAt 3 true false))).map (fun t => (t.crcErrLatch, t.lgIdx)) = some (false, 3) := by
  decide

/-- CT-4. -/
theorem test_reset_v2 :
    (nextOf (exec .reset { payloadAt 0 1 with crc8Acc := 0x5A, crc16Acc := 0x1234 })).map
      (fun t => (t.rxState, t.crc8Acc, t.crc16Acc)) = some (.awaitHeaderByte0, 0x00, 0xFFFF) := by decide

/-- CT-5. -/
theorem test_reset_legacy :
    (nextOf (exec .reset (legacyAt 5 true false))).map (fun t => (t.lgIdx, t.crcErrLatch)) = some (0, false) := by
  decide

/-- P6, its third operation. -/
theorem test_step_refuses :
    (nextOf (step ({ State.reset with crc8Acc := 0x07 }.issue [⟨0x9000, none⟩]))).map
      (fun t => (t.refused, t.lastRefusal, t.crc8Acc)) = some (true, some .reservedOp, 0x07) := by decide

/-! ### Pure functions -/

/-- 95_test_vectors.md 2.1. -/
theorem test_crc8_values :
    crc8 [0x41] = 0xC0 ∧ crc8 [0x2A, 0x31, 0x00, 0x75, 0x30, 0x00, 0x00] = 0xE3 ∧ crc8Update 0xF4 0x00 = 0xC2 := by decide

/-- 95_test_vectors.md 2.1. -/
theorem test_crc16_values :
    crc16 [0x41] = 0xB915 ∧ crc16 [0x03, 0x00, 0x01, 0x02, 0x03] = 0x9EEF ∧ crc16Update 0x29B1 0x00 = 0x044B := by decide

/-- The frames of V2-2 and V2-10: well-formed, and with its CRC bytes swapped not. -/
theorem test_v2_frame_judged :
    isV2Frame [0xAA, 0xBB, 0x02, 0x00, 0xAA, 0xBB, 0xAD, 0x8D] = true ∧
      isV2Frame [0xAA, 0xBB, 0x01, 0x00, 0x01, 0xEB, 0x8D] = false := by decide

/-- Lines of 95_test_vectors.md P1 and P2, and a line that is none. -/
theorem test_assembly :
    assembleLine "RX_BYTE 0xAA    ; 10AA  H0 -> H1".toList = some [.rxByte 0xAA] ∧
      assembleLine "RX_BYTES [0xAA, 0xBB, 0x00, 0x00]".toList =
        some [.rxByte 0xAA, .rxByte 0xBB, .rxByte 0x00, .rxByte 0x00] ∧
      assembleLine "RX_V2 [0x01]".toList =
        some ([0xAA, 0xBB, 0x01, 0x00, 0x01, 0x8D, 0xEB].map .rxByte) ∧
      assembleLine "CRC8_INIT 0x00".toList = none := by decide

/-! ### Witnesses: a state and operands that meet the hypotheses of each statement, at the ends of their ranges -/

theorem test_witness_DecodeOfEncode :
    (Instr.rxByte 0xFF).wellFormed .legacy = true ∧ (Instr.txSendV2 (bytes 1)).wellFormed .v2 = true ∧
      (Instr.txSendV2 (bytes 506)).wellFormed .v2 = true ∧
      (Instr.txSendLegacy (bytes 23)).wellFormed .legacy = true := by decide

theorem test_witness_EncodeOfDecode :
    decode .v2 ⟨0x50FF, none⟩ = .ok (.crc8Byte 0xFF) ∧
      decode .v2 ⟨0x2000, some (bytes 506)⟩ = .ok (.txSendV2 (bytes 506)) := by decide

theorem test_witness_StepRunsTheDecodedOperation :
    (State.reset.issue [⟨0x10AA, none⟩]).pending = ⟨0x10AA, none⟩ :: [] ∧
      decode State.reset.cfg.format ⟨0x10AA, none⟩ = .ok (.rxByte 0xAA) ∧ State.reset.pending = [] := by decide

theorem test_witness_RefusedOperationOnlySetsTheMark :
    (State.reset.issue [⟨0x9000, none⟩, ⟨0x4000, none⟩]).pending = ⟨0x9000, none⟩ :: [⟨0x4000, none⟩] ∧
      decode State.reset.cfg.format ⟨0x9000, none⟩ = .error .reservedOp := by decide

theorem test_witness_StepsRunOperationsInOrder :
    State.reset.pending = [] ∧
      ∀ i ∈ [Instr.txSendV2 (bytes 506), Instr.rxByte 0xAA, Instr.reset], i.wellFormed State.reset.cfg.format = true := by
  decide

theorem test_witness_AssemblyReadsBackAndExpands :
    1 ≤ (bytes 1).length ∧ (bytes 1).length ≤ 506 ∧ 1 ≤ (bytes 506).length ∧ (bytes 506).length ≤ 506 ∧
      (bytes 7).length = 7 := by decide

theorem test_witness_V2FrameLayout :
    1 ≤ (bytes 1).length ∧ (bytes 1).length ≤ 506 ∧ 1 ≤ (bytes 506).length ∧ (bytes 506).length ≤ 506 := by decide

theorem test_witness_WellFormedV2FramesAreTheFramesOfPayloads : isV2Frame (v2Frame [0x01]) = true := by decide

theorem test_witness_CrcInitSetsItsAccumulator :
    decode .v2 ⟨0x4000, none⟩ = .ok .crc8Init ∧ (0x4000 : U16).toNat / 4096 = 4 ∧
      decode .v2 ⟨0x6000, none⟩ = .ok .crc16Init ∧ (0x6000 : U16).toNat / 4096 = 6 := by decide

theorem test_witness_AccumulatorsAreSeparate_changed :
    ∃ t u, exec (.crc8Byte 0x01) State.reset = .next t ∧ t.crc8Acc ≠ State.reset.crc8Acc ∧
      exec (.crc16Byte 0x01) State.reset = .next u ∧ u.crc16Acc ≠ State.reset.crc16Acc :=
  ⟨_, _, rfl, by decide, rfl, by decide⟩

theorem test_witness_AccumulatorsAreSeparate_unread :
    (∃ t, exec (.rxByte 0xEB) beforeLastByte = .next t) ∧ (∃ t, exec (.txSendV2 [0x01]) beforeLastByte = .next t) ∧
      ∃ t, exec (.txSendLegacy (bytes 23)) (legacyAt 0 true true) = .next t :=
  ⟨⟨_, rfl⟩, ⟨_, rfl⟩, ⟨_, rfl⟩⟩

theorem test_witness_V2HeaderScan :
    (v2At .awaitHeaderByte0).cfg.format = .v2 ∧ (v2At .awaitHeaderByte0).rxState = .awaitHeaderByte0 ∧
      (v2At .awaitHeaderByte1).cfg.format = .v2 ∧ (v2At .awaitHeaderByte1).rxState = .awaitHeaderByte1 := by decide

theorem test_witness_V2LowBytesAreStored :
    (v2At .awaitLengthLow).cfg.format = .v2 ∧ (v2At .awaitLengthLow).rxState = .awaitLengthLow ∧
      (v2At .awaitCrcLow).cfg.format = .v2 ∧ (v2At .awaitCrcLow).rxState = .awaitCrcLow := by decide

/-- Lengths 0, 1, 506, 507 and 65535, and the high byte 2. -/
theorem test_witness_V2LengthIsCheckedWhenBothBytesAreThere :
    (v2At .awaitLengthHigh).cfg.format = .v2 ∧ (v2At .awaitLengthHigh).rxState = .awaitLengthHigh ∧
      (0x00 : Byte).toNat + 256 * (0x00 : Byte).toNat = 0 ∧ (0x01 : Byte).toNat + 256 * (0x00 : Byte).toNat = 1 ∧
      (0xFA : Byte).toNat + 256 * (0x01 : Byte).toNat = 506 ∧ (0xFB : Byte).toNat + 256 * (0x01 : Byte).toNat = 507 ∧
      (0xFF : Byte).toNat + 256 * (0xFF : Byte).toNat = 65535 ∧ 2 ≤ (0x02 : Byte).toNat := by decide

/-- The first byte of 1, and the last of 506. -/
theorem test_witness_V2PayloadByteIsStoredAndCounted :
    (payloadAt 0 1).cfg.format = .v2 ∧ (payloadAt 0 1).rxState = .awaitPayload ∧
      (payloadAt 0 1).rxCount.toNat < (payloadAt 0 1).rxLen.toNat ∧ (payloadAt 0 1).rxLen.toNat ≤ 506 ∧
      (payloadAt 505 506).rxCount.toNat < (payloadAt 505 506).rxLen.toNat ∧
      (payloadAt 505 506).rxLen.toNat ≤ 506 := by decide

theorem test_witness_V2CrcDecidesDelivery :
    beforeLastByte.cfg.format = .v2 ∧ beforeLastByte.rxState = .awaitCrcHigh ∧ beforeLastByte.rxLen.toNat ≤ 506 ∧
      { beforeLastByte with rxLen := 506 }.rxLen.toNat ≤ 506 ∧
      beforeLastByte.rxCrcLo.toNat + 256 * (0xEB : Byte).toNat =
        (crc16 ([0x01, 0x00] ++ beforeLastByte.rxBuf.toList.take 1)).toNat ∧
      beforeLastByte.rxCrcLo.toNat + 256 * (0xEC : Byte).toNat ≠
        (crc16 ([0x01, 0x00] ++ beforeLastByte.rxBuf.toList.take 1)).toNat := by decide

/-- Just outside the buffer, and inside it. -/
theorem test_witness_OnlyABufferOverrunStops :
    exec (.rxByte 0x00) (payloadAt 506 507) = .fault .rxBufOverrun ∧
      exec (.rxByte 0x00) { v2At .awaitCrcHigh with rxLen := 507 } = .fault .rxBufOverrun ∧
      (nextOf (exec (.rxByte 0x00) (payloadAt 505 507))).isSome = true ∧
      (nextOf (exec (.rxByte 0x00) { v2At .awaitCrcHigh with rxLen := 2 })).isSome = true :=
  ⟨rfl, rfl, by decide, by decide⟩

theorem test_witness_V2RoundTrip :
    (v2At .awaitHeaderByte0).cfg.format = .v2 ∧ (v2At .awaitHeaderByte0).rxState = .awaitHeaderByte0 ∧
      1 ≤ (bytes 1).length ∧ (bytes 1).length ≤ 506 ∧ 1 ≤ (bytes 506).length ∧ (bytes 506).length ≤ 506 := by decide

theorem test_witness_V2SingleBitPayloadErrorIsDropped :
    (v2At .awaitHeaderByte0).cfg.format = .v2 ∧ (v2At .awaitHeaderByte0).rxState = .awaitHeaderByte0 ∧
      1 ≤ (bytes 1).length ∧ (bytes 1).length ≤ 506 ∧ 0 < (bytes 1).length ∧ (0 : Nat) < 8 ∧
      1 ≤ (bytes 506).length ∧ (bytes 506).length ≤ 506 ∧ 505 < (bytes 506).length ∧ (7 : Nat) < 8 := by decide

theorem test_witness_V2ResynchronisesOnARepeatedHeaderByte :
    (v2At .awaitHeaderByte0).cfg.format = .v2 ∧ (v2At .awaitHeaderByte0).rxState = .awaitHeaderByte0 ∧
      1 ≤ (bytes 1).length ∧ (bytes 1).length ≤ 506 ∧ 1 ≤ (bytes 506).length ∧ (bytes 506).length ≤ 506 := by decide

theorem test_witness_V2RejectedLengthThenValidFrame :
    (v2At .awaitHeaderByte0).cfg.format = .v2 ∧ (v2At .awaitHeaderByte0).rxState = .awaitHeaderByte0 ∧
      (0x00 : Byte).toNat + 256 * (0x00 : Byte).toNat = 0 ∧ 506 < (0xFB : Byte).toNat + 256 * (0x01 : Byte).toNat ∧
      506 < (0xFF : Byte).toNat + 256 * (0xFF : Byte).toNat ∧ 1 ≤ (bytes 1).length ∧ (bytes 1).length ≤ 506 := by decide

theorem test_witness_V2DeliversOnlyFramesInTheStream :
    (v2At .awaitHeaderByte0).cfg.format = .v2 ∧ (v2At .awaitHeaderByte0).rxState = .awaitHeaderByte0 := by decide

/-- Lengths 1 and 506, and one byte fewer than absorbed and exactly as many. -/
theorem test_witness_V2AcceptedLengthAbsorbsItsBytes :
    (payloadAt 0 1).cfg.format = .v2 ∧ (payloadAt 0 1).rxState = .awaitPayload ∧ (payloadAt 0 1).rxCount = 0 ∧
      1 ≤ (payloadAt 0 1).rxLen.toNat ∧ (payloadAt 0 1).rxLen.toNat ≤ 506 ∧ (payloadAt 0 506).rxLen.toNat ≤ 506 ∧
      (bytes 2).length < (payloadAt 0 1).rxLen.toNat + 2 ∧ (bytes 3).length = (payloadAt 0 1).rxLen.toNat + 2 ∧
      (bytes 508).length = (payloadAt 0 506).rxLen.toNat + 2 := by decide

theorem test_witness_ErrorConditionsAndTheirEffects :
    errorCondition 0xBB (v2At .awaitHeaderByte0) = some .v2BadHeader ∧
      errorCondition 0x00 (v2At .awaitHeaderByte1) = some .v2BadHeader ∧
      errorCondition 0x00 (v2At .awaitLengthHigh) = some .v2BadLength ∧
      errorCondition 0x01 { v2At .awaitLengthHigh with rxLenLo := 0xFB } = some .v2BadLength ∧
      errorCondition 0xEC beforeLastByte = some .v2CrcMismatch ∧
      errorCondition 0x01 (legacyAt 7 false false) = some .legacyCrcMismatch := by decide

theorem test_witness_LegacyWindowBytesAreStored :
    (legacyAt 0 false false).cfg.format = .legacy ∧ (legacyAt 0 false false).lgIdx.val < 7 ∧
      (legacyAt 6 false false).cfg.format = .legacy ∧ (legacyAt 6 false false).lgIdx.val < 7 := by decide

theorem test_witness_LegacyTrailerDecides :
    (legacyAt 7 false false).cfg.format = .legacy ∧ (legacyAt 7 false false).lgIdx = 7 ∧
      0x00 = crc8 (legacyAt 7 false false).lgWin.toList ∧ 0x01 ≠ crc8 (legacyAt 7 false false).lgWin.toList ∧
      (legacyAt 0 false false).cfg.format = .legacy ∧ (legacyAt 0 false false).lgIdx = 0 := by decide

theorem test_witness_LegacyWindowsAreBlockAligned :
    (legacyAt 0 false false).cfg.format = .legacy ∧ (legacyAt 0 false false).lgIdx = 0 ∧
      ∀ w ∈ [bytes 8, [0x01, 0xF0, 0, 0, 0, 0, 0, 0xE0]], w.length = 8 := by decide

theorem test_witness_LatchIsSticky :
    (∃ t, exec .clearCrcErr (legacyAt 0 true false) = .next t ∧ (legacyAt 0 true false).crcErrLatch = true ∧
      t.crcErrLatch = false) ∧
      (∃ t, exec (.txSendLegacy (bytes 23)) (legacyAt 0 true true) = .next t ∧ t.crcErrLatch = false) ∧
      ∃ t, exec (.rxByte 0x01) (legacyAt 7 false false) = .next t ∧ (legacyAt 7 false false).crcErrLatch = false ∧
        t.crcErrLatch = true :=
  ⟨⟨_, rfl, by decide, by decide⟩, ⟨_, rfl, by decide⟩, ⟨_, rfl, by decide, by decide⟩⟩

theorem test_witness_LatchReportingRace :
    (legacyAt 7 false true).cfg.format = .legacy ∧ (legacyAt 7 false true).lgIdx = 7 ∧
      0x01 ≠ crc8 (legacyAt 7 false true).lgWin.toList ∧ (bytes 23).length = 23 := by decide

/-- Byte 0 and the last byte of each buffer. -/
theorem test_witness_ReceiveBufferReuseDistance :
    (v2At .awaitHeaderByte0).cfg.format = .v2 ∧ (v2At .awaitHeaderByte0).rxState = .awaitHeaderByte0 ∧
      (bytes 4).length < 5 + 0 ∧ (bytes 509).length < 5 + 505 ∧ (bytes 506).length ≤ 506 ∧ 0 < (bytes 506).length ∧
      505 < (bytes 506).length ∧ (legacyAt 0 false false).cfg.format = .legacy ∧
      (legacyAt 0 false false).lgIdx = 0 ∧ (bytes 0).length < 1 + 0 ∧ (bytes 6).length < 1 + 6 ∧ (0 : Nat) < 7 ∧
      (bytes 1).length = 1 + 0 ∧ (6 : Nat) < 7 ∧ (bytes 7).length = 1 + 6 := by decide

theorem test_witness_RxByteFrame :
    (∃ t, exec (.rxByte 0x22) (payloadAt 505 506) = .next t ∧ (payloadAt 505 506).cfg.format = .v2) ∧
      ∃ t, exec (.rxByte 0x22) (legacyAt 6 true false) = .next t ∧ (legacyAt 6 true false).cfg.format = .legacy ∧
        (legacyAt 6 true false).crcErrLatch = true ∧ (legacyAt 6 true false).lgIdx ≠ 7 :=
  ⟨⟨_, rfl, by decide⟩, ⟨_, rfl, by decide, by decide, by decide⟩⟩

theorem test_witness_OnlyReceivedBytesAndResetMoveTheReceiver :
    ∃ t u, exec .reset (payloadAt 1 2) = .next t ∧ (∀ b, Instr.reset ≠ .rxByte b) ∧
      exec .clearCrcErr (payloadAt 1 2) = .next u ∧ (∀ b, Instr.clearCrcErr ≠ .rxByte b) ∧ Instr.clearCrcErr ≠ .reset :=
  ⟨_, _, rfl, nofun, rfl, nofun, nofun⟩

theorem test_witness_TxSendV2EmitsOneFrame :
    State.reset.cfg.format = .v2 ∧ 1 ≤ (bytes 1).length ∧ (bytes 1).length ≤ 506 ∧ 1 ≤ (bytes 506).length ∧
      (bytes 506).length ≤ 506 ∧ (legacyAt 0 false false).cfg.format = .legacy ∧ (bytes 0).length = 0 ∧
      506 < (bytes 507).length ∧ (bytes 506).length = 506 := by decide

theorem test_witness_TxSendLegacyEmitsOneFrame :
    (legacyAt 0 true true).cfg.format = .legacy ∧ (bytes 23).length = 23 ∧ State.reset.cfg.format = .v2 ∧
      (bytes 22).length ≠ 23 ∧ (bytes 24).length ≠ 23 := by decide

theorem test_witness_FramerIsStateless :
    (∃ t v, exec (.txSendV2 [0x01]) (v2At .awaitHeaderByte0) = .next t ∧
      (payloadAt 1 2).cfg = (v2At .awaitHeaderByte0).cfg ∧ exec (.txSendV2 [0x01]) (payloadAt 1 2) = .next v) ∧
      ∃ t, exec (.txSendLegacy (bytes 23)) (legacyAt 0 true true) = .next t :=
  ⟨⟨_, _, rfl, rfl, rfl⟩, ⟨_, rfl⟩⟩

theorem test_witness_WhoEmitsWhat : ∃ t, exec (.rxByte 0xEB) beforeLastByte = .next t ∧ t.events ≠ [] :=
  ⟨_, rfl, by decide⟩

theorem test_witness_FramerReassemblerLoopback :
    (v2At .awaitHeaderByte0).cfg.format = .v2 ∧ (v2At .awaitHeaderByte0).rxState = .awaitHeaderByte0 ∧
      1 ≤ (bytes 1).length ∧ (bytes 1).length ≤ 506 ∧ 1 ≤ (bytes 506).length ∧ (bytes 506).length ≤ 506 ∧
      (bytes 23).length = 23 ∧ (bytes 7).length = 7 := by decide

theorem test_witness_ClearCrcErrClearsOnlyTheLatch :
    (legacyAt 7 true false).cfg.format = .legacy ∧ (legacyAt 7 true false).lgIdx = 7 ∧
      0x01 ≠ crc8 (legacyAt 7 true false).lgWin.toList := by decide

theorem test_witness_ResetWritesExactlyTheResetState :
    (payloadAt 1 2).cfg.format = .v2 ∧ (legacyAt 5 true false).cfg.format = .legacy := by decide

theorem test_witness_ConfigurationNeverChanges : ∃ t, step (State.reset.issue [⟨0xF000, none⟩]) = .next t := ⟨_, rfl⟩

theorem test_witness_RefusedMarkIsPermanent :
    (∃ t, { State.reset with refused := true }.refused = true ∧
      step ({ State.reset with refused := true }.issue [⟨0xF000, none⟩]) = .next t ∧ t.refused = true) ∧
      (State.reset.issue [⟨0x9000, none⟩]).pending = ⟨0x9000, none⟩ :: [] ∧
      decode State.reset.cfg.format ⟨0x9000, none⟩ = .error .reservedOp ∧
      ∃ t, step (State.reset.issue [⟨0x9000, none⟩]) = .next t ∧ State.reset.refused = false ∧ t.refused = true :=
  ⟨⟨_, rfl, rfl, rfl⟩, rfl, by decide, ⟨_, rfl, rfl, rfl⟩⟩

/-- The invariant at the ends of its ranges: the last byte of the longest payload, and the CRC of it. -/
theorem test_witness_invariant_v2 :
    Inv (payloadAt 505 506) ∧ Inv { v2At .awaitCrcHigh with rxLen := 506, rxCount := 506 } :=
  ⟨⟨fun _ => by unfold RxInv; decide, fun _ => rfl, rfl⟩, ⟨fun _ => by unfold RxInv; decide, fun _ => rfl, rfl⟩⟩

theorem test_witness_invariant_legacy : Inv (legacyAt 7 true true) :=
  ⟨fun h => absurd h (by decide), fun h => absurd h (by decide), rfl⟩

theorem test_witness_StepKeepsTheInvariant :
    Inv ((payloadAt 505 506).issue [⟨0x1000, none⟩]) ∧
      ∃ t, step ((payloadAt 505 506).issue [⟨0x1000, none⟩]) = .next t ∧ t.rxState = .awaitCrcLow :=
  ⟨⟨fun _ => by unfold RxInv; decide, fun _ => rfl, rfl⟩, ⟨_, rfl, by decide⟩⟩

theorem test_witness_NoOperationStopsTheBlock : Inv { payloadAt 0 1 with refused := true, lastRefusal := some .txLength } :=
  ⟨fun _ => by unfold RxInv; decide, fun _ => rfl, rfl⟩

theorem test_witness_V2InvariantsInEveryReachableState : (⟨.v2, true⟩ : Config).format = .v2 := rfl

theorem test_witness_EmittedEventsAreWellShaped :
    Inv ((payloadAt 0 1).issue [⟨0x2000, some [0x01]⟩]) ∧
      (∀ e ∈ ((payloadAt 0 1).issue [⟨0x2000, some [0x01]⟩]).events,
        e.okFor ((payloadAt 0 1).issue [⟨0x2000, some [0x01]⟩]).cfg.format) ∧
      ∃ t, step ((payloadAt 0 1).issue [⟨0x2000, some [0x01]⟩]) = .next t ∧ t.events ≠ [] :=
  ⟨⟨fun _ => by unfold RxInv; decide, fun _ => rfl, rfl⟩, nofun, ⟨_, rfl, by decide⟩⟩

/-- Two states in PL that differ in the CRC byte and in the buffer from the count on. -/
theorem test_witness_StepReadsNoUnwrittenRegister :
    Inv ((payloadAt 0 1).issue [⟨0x1000, none⟩]) ∧
      AgreeOnWritten ((payloadAt 0 1).issue [⟨0x1000, none⟩])
        ({ payloadAt 0 1 with rxCrcLo := 0xFF, rxBuf := Vector.replicate 506 0xFF }.issue [⟨0x1000, none⟩]) ∧
      ∃ t, step ((payloadAt 0 1).issue [⟨0x1000, none⟩]) = .next t :=
  ⟨⟨fun _ => by unfold RxInv; decide, fun _ => rfl, rfl⟩,
    ⟨rfl, fun _ h => absurd h (by decide), fun _ _ => ⟨rfl, rfl, fun _ h => absurd h (Nat.not_lt_zero _)⟩,
      fun _ h => absurd h (by decide), fun h => absurd h (by decide)⟩, ⟨_, rfl⟩⟩

end Sys2Proof.Machine.Tests
end

section
/-! SUPPORT. The configuration through each operation and each step (00_scope.md R6, 10_state.md R15). -/

namespace Sys2Proof.Machine

/-! ### One received byte -/

@[simp] theorem rxHeader0_cfg (b : Byte) (s : State) : (rxHeader0 b s).cfg = s.cfg := by
  unfold rxHeader0; split <;> rfl

@[simp] theorem rxHeader1_cfg (b : Byte) (s : State) : (rxHeader1 b s).cfg = s.cfg := by
  unfold rxHeader1; split_ifs <;> rfl

@[simp] theorem rxLengthLow_cfg (b : Byte) (s : State) : (rxLengthLow b s).cfg = s.cfg := rfl

@[simp] theorem rxLengthHigh_cfg (b : Byte) (s : State) : (rxLengthHigh b s).cfg = s.cfg := by
  unfold rxLengthHigh; split <;> rfl

@[simp] theorem rxCrcLow_cfg (b : Byte) (s : State) : (rxCrcLow b s).cfg = s.cfg := rfl

/-- A byte received on the v2 wire keeps the configuration, in each row of 41_rx_v2.md R81. -/
theorem rxByteV2_cfg {b : Byte} {s t : State} (h : rxByteV2 b s = .next t) : t.cfg = s.cfg := by
  obtain ⟨-, rfl⟩ | ⟨-, rfl⟩ | ⟨-, rfl⟩ | ⟨-, rfl⟩ | ⟨-, -, rfl⟩ | ⟨-, rfl⟩ | ⟨-, -, rfl⟩ := rxByteV2_cases h
  · exact rxHeader0_cfg b s
  · exact rxHeader1_cfg b s
  · exact rxLengthLow_cfg b s
  · exact rxLengthHigh_cfg b s
  · rfl
  · exact rxCrcLow_cfg b s
  · rw [rxGoto_cfg]
    split
    · exact emit_cfg _ s
    · rfl

/-- A byte received on the legacy wire keeps the configuration, in each row of 42_rx_legacy.md R89. -/
@[simp] theorem rxByteLegacy_cfg (b : Byte) (s : State) : (rxByteLegacy b s).cfg = s.cfg := by
  obtain ⟨-, e⟩ | ⟨-, -, e⟩ | ⟨-, -, e⟩ := rxByteLegacy_cases b s <;> rw [e]

theorem execRxByte_cfg {b : Byte} {s t : State} (h : execRxByte b s = .next t) : t.cfg = s.cfg := by
  unfold execRxByte at h
  cases hf : s.cfg.format <;> simp only [hf] at h
  case v2 => exact rxByteV2_cfg h
  case legacy => cases h; exact rxByteLegacy_cfg b s

/-! ### One framer operation -/

theorem execTxSendV2_cfg {p : List Byte} {s t : State} (h : execTxSendV2 p s = .next t) : t.cfg = s.cfg := by
  obtain ⟨-, e⟩ | ⟨-, -, e⟩ | ⟨-, -, e⟩ := execTxSendV2_cases p s <;>
  · rw [e] at h
    cases h
    rfl

theorem execTxSendLegacy_cfg {body : List Byte} {s t : State} (h : execTxSendLegacy body s = .next t) :
    t.cfg = s.cfg := by
  obtain ⟨-, e⟩ | ⟨-, -, e⟩ | ⟨-, -, e⟩ := execTxSendLegacy_cases body s <;>
  · rw [e] at h
    cases h
    simp

/-! ### Any operation, any step -/

/-- Every operation that answers a next state keeps the configuration (00_scope.md R6: RESET too). -/
theorem exec_cfg {i : Instr} {s t : State} (h : exec i s = .next t) : t.cfg = s.cfg := by
  cases i with
  | rxByte b => exact execRxByte_cfg h
  | txSendV2 p => exact execTxSendV2_cfg h
  | txSendLegacy body => exact execTxSendLegacy_cfg h
  | crc8Init | crc8Byte | crc16Init | crc16Byte | clearCrcErr => cases h; rfl
  | reset => cases h; simp

/-- A step waits, refuses or runs an operation, and the configuration stays in each case. -/
theorem step_cfg {s t : State} (h : step s = .next t) : t.cfg = s.cfg := by
  obtain ⟨-, e⟩ | ⟨_, _, _, -, -, e⟩ | ⟨_, _, _, -, -, e⟩ := step_cases s <;> rw [e] at h
  · cases h; rfl
  · cases h; rfl
  · exact (exec_cfg h :)

/-- Settles O50: each of the three things a step can do keeps the configuration. -/
theorem configurationNeverChanges : Obligations.ConfigurationNeverChanges := fun _ _ => step_cfg

end Sys2Proof.Machine
end

section
/-! SUPPORT. The `refused` mark through each operation and each step (10_state.md R31, 60_exceptions.md R106). -/

namespace Sys2Proof

/-- What the decoder answers is well-formed in the format it was decoded for (30_encoding.md R57). -/
theorem wellFormed_of_decode {f : Format} {o : Operation} {i : Instr} (h : decode f o = .ok i) :
    i.wellFormed f = true := by
  obtain ⟨-, k, -, -, -, hf, hl, rfl⟩ := (decode_ok_iff f o i).1 h
  refine (legal_iff_wellFormed f _).1 ?_
  rw [opcode_build]
  refine ⟨hf, ?_⟩
  cases k with
  | txSendV2 | txSendLegacy => exact hl
  | rxByte | crc8Init | crc8Byte | crc16Init | crc16Byte | clearCrcErr | reset => rfl

end Sys2Proof

namespace Sys2Proof.Machine

/-! ### One received byte -/

@[simp] theorem rxHeader0_refused (b : Byte) (s : State) : (rxHeader0 b s).refused = s.refused := by
  unfold rxHeader0; split <;> rfl

@[simp] theorem rxHeader1_refused (b : Byte) (s : State) : (rxHeader1 b s).refused = s.refused := by
  unfold rxHeader1; split_ifs <;> rfl

@[simp] theorem rxLengthLow_refused (b : Byte) (s : State) : (rxLengthLow b s).refused = s.refused := rfl

@[simp] theorem rxLengthHigh_refused (b : Byte) (s : State) : (rxLengthHigh b s).refused = s.refused := by
  unfold rxLengthHigh; split <;> rfl

@[simp] theorem rxCrcLow_refused (b : Byte) (s : State) : (rxCrcLow b s).refused = s.refused := rfl

/-- A byte received on the v2 wire leaves the mark, in each row of 41_rx_v2.md R81: a dropped frame is not a refusal. -/
theorem rxByteV2_refused {b : Byte} {s t : State} (h : rxByteV2 b s = .next t) : t.refused = s.refused := by
  obtain ⟨-, rfl⟩ | ⟨-, rfl⟩ | ⟨-, rfl⟩ | ⟨-, rfl⟩ | ⟨-, -, rfl⟩ | ⟨-, rfl⟩ | ⟨-, -, rfl⟩ := rxByteV2_cases h
  · exact rxHeader0_refused b s
  · exact rxHeader1_refused b s
  · exact rxLengthLow_refused b s
  · exact rxLengthHigh_refused b s
  · rfl
  · exact rxCrcLow_refused b s
  · rw [rxGoto_refused]
    split
    · exact emit_refused _ s
    · rfl

/-- A byte received on the legacy wire leaves the mark, in each row of 42_rx_legacy.md R89. -/
@[simp] theorem rxByteLegacy_refused (b : Byte) (s : State) : (rxByteLegacy b s).refused = s.refused := by
  obtain ⟨-, e⟩ | ⟨-, -, e⟩ | ⟨-, -, e⟩ := rxByteLegacy_cases b s <;> rw [e]

theorem execRxByte_refused {b : Byte} {s t : State} (h : execRxByte b s = .next t) : t.refused = s.refused := by
  unfold execRxByte at h
  cases hf : s.cfg.format <;> simp only [hf] at h
  case v2 => exact rxByteV2_refused h
  case legacy => cases h; exact rxByteLegacy_refused b s

/-! ### One framer operation -/

/-- A well-formed TX_SEND_V2 passes both checks of 43_tx_framer.md R91, so it emits its frame. -/
theorem execTxSendV2_of_wellFormed {p : List Byte} {s : State}
    (hw : (Instr.txSendV2 p).wellFormed s.cfg.format = true) :
    execTxSendV2 p s = .next (emit (.txBytes (v2Frame p)) s) := by
  simp only [Instr.wellFormed, Bool.and_eq_true, decide_eq_true_eq, and_assoc] at hw
  obtain ⟨hf, hl⟩ := hw
  obtain ⟨hf', -⟩ | ⟨-, hl', -⟩ | ⟨-, -, e⟩ := execTxSendV2_cases p s
  · exact absurd hf hf'
  · exact absurd hl hl'
  · exact e

/-- A well-formed TX_SEND_LEGACY passes both checks of 43_tx_framer.md R94, so it emits its response. -/
theorem execTxSendLegacy_of_wellFormed {body : List Byte} {s : State}
    (hw : (Instr.txSendLegacy body).wellFormed s.cfg.format = true) :
    execTxSendLegacy body s = .next (reportLatch (emit (.txBytes (legacyResponseFrame body)) s)) := by
  simp only [Instr.wellFormed, Bool.and_eq_true, decide_eq_true_eq] at hw
  obtain ⟨hf, hl⟩ := hw
  obtain ⟨hf', -⟩ | ⟨-, hl', -⟩ | ⟨-, -, e⟩ := execTxSendLegacy_cases body s
  · exact absurd hf hf'
  · exact absurd hl hl'
  · exact e

/-! ### Any operation, any step -/

/-- A well-formed operation neither sets nor clears the mark (10_state.md R31: RESET does not clear it either). -/
theorem exec_refused_of_wellFormed {i : Instr} {s t : State} (hw : i.wellFormed s.cfg.format = true)
    (h : exec i s = .next t) : t.refused = s.refused := by
  cases i with
  | rxByte b => exact execRxByte_refused h
  | txSendV2 p =>
    cases (execTxSendV2_of_wellFormed hw).symm.trans h
    rfl
  | txSendLegacy body =>
    cases (execTxSendLegacy_of_wellFormed hw).symm.trans h
    simp
  | crc8Init | crc8Byte | crc16Init | crc16Byte | clearCrcErr => cases h; rfl
  | reset => cases h; simp

/-- A step on an operation the decoder refuses is `refuse`, with the operation taken. -/
theorem step_of_decode_error {s : State} {o : Operation} {rest : List Operation} {r : RefuseReason}
    (hp : s.pending = o :: rest) (hd : decode s.cfg.format o = .error r) :
    step s = .next (refuse r { s with pending := rest }) := by
  simp [step, takeOperation_cons hp, hd]

/-- What a step does to the mark: a refused operation sets it, and every other step leaves it as it was. -/
theorem step_refused_cases {s t : State} (h : step s = .next t) :
    (t.refused = true ∧ ∃ o rest r, s.pending = o :: rest ∧ decode s.cfg.format o = .error r) ∨
      t.refused = s.refused := by
  obtain ⟨-, e⟩ | ⟨o, rest, r, hp, hd, e⟩ | ⟨_, rest, _, -, hd, e⟩ := step_cases s <;> rw [e] at h
  · cases h
    exact .inr rfl
  · cases h
    exact .inl ⟨rfl, o, rest, r, hp, hd⟩
  · exact .inr (exec_refused_of_wellFormed (s := { s with pending := rest }) (wellFormed_of_decode hd) h)

/-- Settles O51: a step on a refused operation sets the mark, and every other step, RESET among them, leaves it. -/
theorem refusedMarkIsPermanent : Obligations.RefusedMarkIsPermanent := by
  refine ⟨fun _ => rfl, fun s o rest r hp hd => ⟨_, step_of_decode_error hp hd, rfl⟩, fun s t h => ?_, fun s hs => ?_⟩
  · obtain ⟨ht, hr⟩ | ht := step_refused_cases h
    · exact ⟨fun _ => ht, fun _ => .inr hr⟩
    · exact ⟨ht.trans, fun h' => .inl (ht.symm.trans h')⟩
  · simp [State.observe, Observation.hasMeaning, hs]

end Sys2Proof.Machine
end

section
/-! SUPPORT. The decoder of 30_encoding.md R57 in plain arithmetic on the operation word: each check as a condition on the
number of `op`. -/

namespace Sys2Proof

/-! ### The fields as numbers -/

theorem zField_ne_zero_iff (w : U16) : zField w ≠ 0 ↔ w.toNat / 256 % 16 ≠ 0 := by
  rw [← zField_toNat, Ne, ← BitVec.toNat_inj]
  rfl

theorem immField_ne_zero_iff (w : U16) : immField w ≠ 0 ↔ w.toNat % 256 ≠ 0 := by
  rw [← immField_toNat, Ne, ← BitVec.toNat_inj]
  rfl

theorem immField_eq_ofNat (w : U16) : immField w = BitVec.ofNat 8 (w.toNat % 256) := by
  rw [← immField_toNat, BitVec.ofNat_toNat, BitVec.setWidth_eq]

/-! ### The columns of the operation map by the number of `op` (30_encoding.md R51, R52) -/

/-- The reserved codes. -/
theorem ofCode_eq_none_iff (c : BitVec 4) :
    Opcode.ofCode c = none ↔ c.toNat = 0 ∨ (9 ≤ c.toNat ∧ c.toNat ≤ 14) := by
  revert c
  decide

theorem takesByte_eq_false_iff (k : Opcode) :
    k.takesByte = false ↔ k.code.toNat ≠ 1 ∧ k.code.toNat ≠ 5 ∧ k.code.toNat ≠ 7 := by
  cases k <;> decide

theorem takesData_iff (k : Opcode) : k.takesData = true ↔ k.code.toNat = 2 ∨ k.code.toNat = 3 := by
  cases k <;> decide

theorem legalIn_eq_false_iff (f : Format) (k : Opcode) :
    k.legalIn f = false ↔ (k.code.toNat = 2 ∧ f = .legacy) ∨ (k.code.toNat = 3 ∧ f = .v2) := by
  cases k <;> cases f <;> decide

theorem lengthOk_eq_false_iff (n : Nat) (k : Opcode) :
    k.lengthOk n = false ↔ (k.code.toNat = 2 ∧ (n < 1 ∨ 506 < n)) ∨ (k.code.toNat = 3 ∧ n ≠ 23) := by
  cases k with
  | txSendV2 =>
    rw [Opcode.lengthOk, Bool.and_eq_false_iff, decide_eq_false_iff_not, decide_eq_false_iff_not, not_le, not_le]
    simp [Opcode.code]
  | txSendLegacy => simp [Opcode.lengthOk, Opcode.code, Config.legacyRspLen]
  | rxByte | crc8Init | crc8Byte | crc16Init | crc16Byte | clearCrcErr | reset => simp [Opcode.lengthOk, Opcode.code]

/-- The data check: an operand missing where the row takes one, or attached where it takes none. -/
theorem dataMismatch_iff (d : Option (List Byte)) (k : Opcode) :
    d.isSome ≠ k.takesData ↔
      (d = none ∧ (k.code.toNat = 2 ∨ k.code.toNat = 3)) ∨ (d ≠ none ∧ k.code.toNat ≠ 2 ∧ k.code.toNat ≠ 3) := by
  rw [← not_or, ← takesData_iff]
  cases d <;> cases k.takesData <;> simp

/-! ### The whole decoder -/

/-- Settles O4: the decoder tests the same conditions in the same order; past the `op` check the word's `op` is the code
of a row, and each later check is a column of that row. -/
theorem decoderChecksInOrder : Obligations.DecoderChecksInOrder := by
  intro f o
  unfold decode
  refine if_congr (zField_ne_zero_iff o.word) rfl ?_
  cases hk : Opcode.ofCode (opField o.word) with
  | none =>
    have hr := (ofCode_eq_none_iff _).1 hk
    rw [opField_toNat] at hr
    exact (if_pos hr).symm
  | some k =>
    have hr : ¬(k.code.toNat = 0 ∨ (9 ≤ k.code.toNat ∧ k.code.toNat ≤ 14)) := by
      rw [← ofCode_eq_none_iff, ofCode_code]
      exact Option.some_ne_none k
    have hop : o.word.toNat / 4096 = k.code.toNat := by rw [code_of_ofCode hk, opField_toNat]
    rw [hop, if_neg hr, immField_eq_ofNat]
    refine if_congr ?_ rfl (if_congr (dataMismatch_iff o.data k) rfl (if_congr (legalIn_eq_false_iff f k) rfl
      (if_congr (lengthOk_eq_false_iff _ k) rfl ?_)))
    · rw [← immField_eq_ofNat, takesByte_eq_false_iff, immField_ne_zero_iff, and_assoc, and_assoc]
    · cases k <;> rfl

end Sys2Proof
end

section
/-! SUPPORT. The layouts of the wire frames (30_encoding.md R44, R46, R47), offset by offset. -/

namespace Sys2Proof.Machine

/-! ### v2 (30_encoding.md R44) -/

theorem lo_lengthField (p : List Byte) : lo (lengthField p) = BitVec.ofNat 8 p.length := by
  apply BitVec.eq_of_toNat_eq
  simp only [lo_toNat, lengthField, BitVec.toNat_ofNat]
  omega

theorem hi_lengthField (p : List Byte) : hi (lengthField p) = BitVec.ofNat 8 (p.length / 256) := by
  apply BitVec.eq_of_toNat_eq
  simp only [hi_toNat, lengthField, BitVec.toNat_ofNat]
  omega

/-- The CRC of a v2 frame covers the two length bytes and the payload (20_memory.md R36). -/
theorem frameCrc_lengthField (p : List Byte) :
    frameCrc (lengthField p) p = crc16 ([BitVec.ofNat 8 p.length, BitVec.ofNat 8 (p.length / 256)] ++ p) := by
  rw [frameCrc, lo_lengthField, hi_lengthField]

@[simp] theorem v2Frame_length (p : List Byte) : (v2Frame p).length = p.length + 6 := by
  simp [v2Frame]

theorem v2Frame_payload (p : List Byte) {i : Nat} (h : i < p.length) : (v2Frame p)[4 + i]? = p[i]? := by
  rw [v2Frame, List.append_assoc, List.getElem?_append_right (Nat.le_add_right 4 i), List.getElem?_append_left]
  · exact congrArg (p[·]?) (Nat.add_sub_cancel_left 4 i)
  · simpa using h

/-- Past the payload stand the two bytes of the CRC, the low byte first. -/
theorem v2Frame_crc (p : List Byte) (i : Nat) :
    (v2Frame p)[4 + p.length + i]? = [lo (frameCrc (lengthField p) p), hi (frameCrc (lengthField p) p)][i]? := by
  have hl : ([Config.hdr0, Config.hdr1, lo (lengthField p), hi (lengthField p)] ++ p).length = 4 + p.length :=
    List.length_append
  rw [v2Frame, List.getElem?_append_right (by omega), hl, Nat.add_sub_cancel_left]

/-- Settles O9: header and length bytes stand in the frame as it is built, and `v2Frame_payload` and `v2Frame_crc` give
what follows them. -/
theorem v2FrameLayout : Obligations.V2FrameLayout := by
  intro p h₁ h₂
  have hc := frameCrc_lengthField p
  have hl := v2Frame_length p
  refine ⟨hl, by omega, by omega, rfl, rfl, congrArg some (lo_lengthField p), congrArg some (hi_lengthField p),
    fun _ => v2Frame_payload p, ?_, ?_, ?_⟩
  · rw [← hc]
    exact v2Frame_crc p 0
  · rw [← hc, Nat.add_right_comm 4 1]
    exact v2Frame_crc p 1
  · have hq : p.length / 256 = 0 ∨ p.length / 256 = 1 := by omega
    exact hq.imp (congrArg (BitVec.ofNat 8)) (congrArg (BitVec.ofNat 8))

/-! ### legacy (30_encoding.md R46, R47) -/

@[simp] theorem commandBytes_length (c : CommandContent) : (commandBytes c).length = 7 := by
  simp [commandBytes]

@[simp] theorem responseBytes_length (r : ResponseBody) : (responseBytes r).length = 23 := by
  simp [responseBytes]

/-- The byte after the content of a legacy frame is the CRC-8 of everything before it. -/
theorem trailer_eq_crc8_take {m : List Byte} {n : Nat} (h : m.length = n) :
    (m ++ [crc8 m])[n]? = some (crc8 ((m ++ [crc8 m]).take n)) := by
  subst h
  rw [List.take_left, List.getElem?_concat_length]

/-- The bytes of a field that starts at offset `k`. -/
theorem getElem?_append_field {n k : Nat} {a : List Byte} (ha : a.length = k) (v : Vector Byte n) (i : Nat) :
    (a ++ v.toList)[k + i]? = v[i]? := by
  subst ha
  rw [List.getElem?_append_right (Nat.le_add_right _ i), Nat.add_sub_cancel_left, Vector.getElem?_toList]

theorem commandFrame_params (c : CommandContent) {i : Nat} (h : i < 5) :
    (legacyCommandFrame (commandBytes c))[2 + i]? = c.params[i]? := by
  rw [legacyCommandFrame, List.getElem?_append_left (by rw [commandBytes_length]; omega)]
  exact getElem?_append_field rfl c.params i

/-- Each 4-byte field of a response stands at its offset: the bytes of the fields after it are dropped, and it is then the
last of those left. -/
theorem responseFrame_fields (r : ResponseBody) {i : Nat} (h : i < 4) :
    let f := legacyResponseFrame (responseBytes r)
    f[2 + i]? = r.position1[i]? ∧ f[6 + i]? = r.position2[i]? ∧ f[10 + i]? = r.position3[i]? ∧
      f[14 + i]? = r.fourth[i]? ∧ f[19 + i]? = r.reserved[i]? := by
  simp (disch := simp; omega) only [legacyResponseFrame, responseBytes, List.getElem?_append_left]
  refine ⟨?_, ?_, ?_, ?_, ?_⟩ <;> exact getElem?_append_field (by simp) _ i

theorem responseFrame_button (r : ResponseBody) :
    (legacyResponseFrame (responseBytes r))[18]? = some r.button := by
  simp [legacyResponseFrame, responseBytes]

/-- Settles O11: the fields by their offsets, and the trailer by `trailer_eq_crc8_take`. -/
theorem legacyFrameLayouts : Obligations.LegacyFrameLayouts :=
  ⟨fun c => ⟨by simp [legacyCommandFrame], rfl, rfl, fun _ => commandFrame_params c,
      trailer_eq_crc8_take (commandBytes_length c)⟩,
    fun r => ⟨by simp [legacyResponseFrame], rfl, rfl, fun _ => responseFrame_fields r, responseFrame_button r,
      trailer_eq_crc8_take (responseBytes_length r)⟩⟩

end Sys2Proof.Machine
end

section
/-! SUPPORT. The CRC updates of 40_crc.md as arithmetic on numbers: one pass of their loops, and where passes cancel. -/

namespace Sys2Proof.Machine

/-! ### A field moved up in a wider word -/

/-- A field widened and shifted left loses no bit when it fits. -/
theorem setWidth_shiftLeft_toNat {m n w : Nat} (x : BitVec m) (h : m + n ≤ w) :
    (x.setWidth w <<< n).toNat = 2 ^ n * x.toNat := by
  have hlt : 2 ^ n * x.toNat < 2 ^ w :=
    calc 2 ^ n * x.toNat < 2 ^ n * 2 ^ m := Nat.mul_lt_mul_of_pos_left x.isLt (Nat.two_pow_pos n)
      _ = 2 ^ (m + n) := by rw [Nat.pow_add, Nat.mul_comm]
      _ ≤ 2 ^ w := Nat.pow_le_pow_right Nat.two_pos h
  rw [BitVec.toNat_shiftLeft, BitVec.toNat_setWidth_of_le (by omega), Nat.shiftLeft_eq, Nat.mul_comm,
    Nat.mod_eq_of_lt hlt]

/-! ### One pass on numbers (40_crc.md R58, R60) -/

/-- A pass that tests its top bit before the shift, on numbers: it doubles, loses what leaves the width, and XORs the
polynomial exactly where the number had reached half of its range. -/
theorem topBitPass_toNat {w : Nat} (a poly : BitVec (w + 1)) :
    (if a.getLsbD w then (a <<< 1) ^^^ poly else a <<< 1).toNat =
      if 2 ^ w ≤ a.toNat then (2 * a.toNat) % 2 ^ (w + 1) ^^^ poly.toNat else (2 * a.toNat) % 2 ^ (w + 1) := by
  have htop : a.getLsbD w = decide (2 ^ w ≤ a.toNat) := by
    simpa [BitVec.msb_eq_getLsbD_last] using BitVec.msb_eq_decide a
  have hshift : (a <<< 1).toNat = (2 * a.toNat) % 2 ^ (w + 1) := by
    rw [BitVec.toNat_shiftLeft, Nat.shiftLeft_eq, pow_one, Nat.mul_comm]
  rw [htop]
  by_cases h : 2 ^ w ≤ a.toNat
  · rw [if_pos (decide_eq_true h), if_pos h, BitVec.toNat_xor, hshift]
  · rw [if_neg (by simpa using h), if_neg h, hshift]

theorem crc8Shift_toNat (a : Byte) :
    (crc8Shift a).toNat = if 128 ≤ a.toNat then (2 * a.toNat) % 256 ^^^ 7 else (2 * a.toNat) % 256 :=
  topBitPass_toNat a Config.crc8Poly

theorem crc16Shift_toNat (a : U16) :
    (crc16Shift a).toNat =
      if 32768 ≤ a.toNat then (2 * a.toNat) % 65536 ^^^ 0x1021 else (2 * a.toNat) % 65536 :=
  topBitPass_toNat a Config.crc16Poly

/-! ### Where passes cancel (40_crc.md R59, R61) -/

/-- A byte equal to the accumulator cancels it, and no pass changes zero. -/
@[simp] theorem crc8Update_self (a : Byte) : crc8Update a a = 0 := by
  rw [crc8Update, BitVec.xor_self]
  exact Function.iterate_fixed crc8Shift_zero 8

theorem crc8_replicate_zero (n : Nat) : crc8 (List.replicate n 0) = 0 := by
  induction n with
  | zero => rfl
  | succ n ih => rw [List.replicate_succ', crc8_append_byte, ih, crc8Update_self]

/-- Passes that move no bit out of the word only double. -/
theorem crc16Shift_iterate_toNat {a : U16} {n : Nat} (h : 2 ^ n * a.toNat < 65536) :
    (crc16Shift^[n] a).toNat = 2 ^ n * a.toNat := by
  induction n with
  | zero => simp
  | succ n ih =>
    rw [Nat.pow_succ', Nat.mul_assoc] at h ⊢
    have hn : (crc16Shift^[n] a).toNat = 2 ^ n * a.toNat := ih (by omega)
    rw [Function.iterate_succ_apply', crc16Shift_toNat, hn, if_neg (by omega), Nat.mod_eq_of_lt h]

/-- Eight passes take a low byte to the top of the word: none of its bits leaves the word. -/
theorem crc16Shift_iterate_lowByte (b : Byte) : crc16Shift^[8] (b.setWidth 16) = b.setWidth 16 <<< 8 := by
  have hb : (b.setWidth 16).toNat = b.toNat := BitVec.toNat_setWidth_of_le (by decide)
  apply BitVec.eq_of_toNat_eq
  rw [crc16Shift_iterate_toNat (by omega), hb, setWidth_shiftLeft_toNat b (by decide)]

theorem xor_topByte_hi (v : U16) : v ^^^ ((hi v).setWidth 16 <<< 8) = (lo v).setWidth 16 := by
  ext i h
  by_cases h8 : i < 8
  · simp [hi, lo, h8, BitVec.getLsbD_eq_getElem h]
  · have hi8 : 8 + (i - 8) = i := by omega
    have hlt : i - 8 < 8 := by omega
    simp [hi, lo, h8, hi8, hlt, BitVec.getLsbD_eq_getElem h]

/-- The residue property: the high byte of the CRC cancels the top half, the passes lift the low half to the top, and the
low byte cancels it there. -/
theorem crc16Update_hi_lo (c : U16) : crc16Update (crc16Update c (hi c)) (lo c) = 0 := by
  have hhi : crc16Update c (hi c) = (lo c).setWidth 16 <<< 8 := by
    rw [crc16Update, xor_topByte_hi, crc16Shift_iterate_lowByte]
  rw [hhi, crc16Update, BitVec.xor_self]
  exact Function.iterate_fixed crc16Shift_zero 8

theorem crc16_append_hi_lo (m : List Byte) : crc16 (m ++ [hi (crc16 m), lo (crc16 m)]) = 0 := by
  rw [List.append_cons, crc16_append_byte, crc16_append_byte, crc16Update_hi_lo]

/-! ### Values (40_crc.md R59, R61) -/

/-- The catalogue check value of CRC-8. -/
theorem crc8_checkValue : crc8 [0x31, 0x32, 0x33, 0x34, 0x35, 0x36, 0x37, 0x38, 0x39] = 0xF4 := by
  simp [crc8, crc8Update, crc8Shift, Config.crc8Init, Config.crc8Poly, Function.iterate_succ_apply']

/-- The catalogue check value of CRC-16. -/
theorem crc16_checkValue : crc16 [0x31, 0x32, 0x33, 0x34, 0x35, 0x36, 0x37, 0x38, 0x39] = 0x29B1 := by
  simp [crc16, crc16Update, crc16Shift, Config.crc16Init, Config.crc16Poly, Function.iterate_succ_apply']

/-- The message 0x41 followed by its CRC 0xB915, low byte first. -/
theorem crc16_append_lo_hi_ne_zero : crc16 ([0x41] ++ [lo (crc16 [0x41]), hi (crc16 [0x41])]) ≠ 0 := by
  have hc : crc16 [0x41] = 0xB915 := by decide
  have hv : crc16 [0x41, 0x15, 0xB9] = 0x2C75 := by
    simp [crc16, crc16Update, crc16Shift, Config.crc16Init, Config.crc16Poly, Function.iterate_succ_apply']
  rw [hc]
  exact hv.trans_ne (by decide)

/-! ### The obligations on updates and buffers -/

/-- Settles O12: the sequence is the accumulator after each number of passes, and `crc8Shift_toNat` is its step. -/
theorem crc8UpdateIsTheEightPassLoop : Obligations.Crc8UpdateIsTheEightPassLoop := by
  refine fun acc b => ⟨fun k => (crc8Shift^[k] (acc ^^^ b)).toNat, BitVec.toNat_xor .., fun k _ => ?_, rfl⟩
  simp only [Function.iterate_succ_apply', crc8Shift_toNat]

/-- Settles O13: the residue is the last byte cancelling the accumulator, and zero bytes keep a zero accumulator. -/
theorem crc8OfABuffer : Obligations.Crc8OfABuffer :=
  ⟨rfl, crc8_append_byte, fun m => by rw [crc8_append_byte, crc8Update_self], crc8_replicate_zero, crc8_checkValue⟩

/-- Settles O14: the sequence is the accumulator after each number of passes, and `crc16Shift_toNat` is its step. -/
theorem crc16UpdateIsTheEightPassLoop : Obligations.Crc16UpdateIsTheEightPassLoop := by
  refine fun acc b => ⟨fun k => (crc16Shift^[k] (acc ^^^ (b.setWidth 16 <<< 8))).toNat, ?_, fun k _ => ?_, rfl⟩
  · exact (BitVec.toNat_xor ..).trans (congrArg (acc.toNat ^^^ ·) (setWidth_shiftLeft_toNat b (by decide)))
  · simp only [Function.iterate_succ_apply', crc16Shift_toNat]

/-- Settles O15: the residue is `crc16_append_hi_lo`, and the one-byte message 0x41, whose CRC is 0xB915, has none with
the bytes the other way round. -/
theorem crc16OfABuffer : Obligations.Crc16OfABuffer :=
  ⟨rfl, crc16_append_byte, crc16_append_hi_lo, ⟨[0x41], crc16_append_lo_hi_ne_zero⟩, fun _ _ => rfl,
    crc16_checkValue⟩

end Sys2Proof.Machine
end

section
/-! SUPPORT. The four operations of the CRC engine: their words (30_encoding.md R51) and what they do to a state
(40_crc.md R62 to R65). -/

namespace Sys2Proof

/-- A row without a byte operand has one legal word. -/
theorem word_eq_of_decode {f : Format} {o : Operation} {i : Instr} (h : decode f o = .ok i) {k : Opcode}
    (hk : k.takesByte = false) (hop : o.word.toNat / 4096 = k.code.toNat) : o.word = packWord k.code 0 0 := by
  obtain ⟨hz, k', hk', himm, -⟩ := (decode_ok_iff f o i).1 h
  have hcode : opField o.word = k.code := BitVec.eq_of_toNat_eq ((opField_toNat o.word).trans hop)
  rw [hcode, ofCode_code, Option.some_inj] at hk'
  subst hk'
  have hi : immField o.word = 0 := himm.resolve_left (by simp [hk])
  rw [← packWord_fields o.word, hcode, hz, hi]

/-- With a zero `z` the operand byte stands beside `op`. -/
theorem packWord_zero_eq_or (op : BitVec 4) (b : Byte) :
    packWord op 0 b = (op.setWidth 16 <<< 12) ||| b.setWidth 16 := by
  apply BitVec.eq_of_toNat_eq
  have hb : b.toNat < 2 ^ 12 := by omega
  rw [packWord_toNat, BitVec.toNat_or, Machine.setWidth_shiftLeft_toNat op (by decide),
    BitVec.toNat_setWidth_of_le (by decide), ← Nat.two_pow_add_eq_or_of_lt hb]
  simp

end Sys2Proof

namespace Sys2Proof.Machine

@[simp] theorem exec_crc8Init (s : State) : exec .crc8Init s = .next { s with crc8Acc := 0x00 } := rfl

@[simp] theorem exec_crc16Init (s : State) : exec .crc16Init s = .next { s with crc16Acc := 0xFFFF } := rfl

@[simp] theorem exec_crc8Byte (b : Byte) (s : State) :
    exec (.crc8Byte b) s = .next { s with crc8Acc := crc8Update s.crc8Acc b } := rfl

@[simp] theorem exec_crc16Byte (b : Byte) (s : State) :
    exec (.crc16Byte b) s = .next { s with crc16Acc := crc16Update s.crc16Acc b } := rfl

/-- A buffer sent byte by byte folds into the CRC-8 accumulator. -/
theorem execAll_crc8Byte (m : List Byte) (s : State) :
    execAll (m.map .crc8Byte) s = .next { s with crc8Acc := m.foldl crc8Update s.crc8Acc } := by
  induction m generalizing s with
  | nil => rfl
  | cons b m ih => rw [List.map_cons, execAll_cons (exec_crc8Byte b s), ih, List.foldl_cons]

/-- A buffer sent byte by byte folds into the CRC-16 accumulator. -/
theorem execAll_crc16Byte (m : List Byte) (s : State) :
    execAll (m.map .crc16Byte) s = .next { s with crc16Acc := m.foldl crc16Update s.crc16Acc } := by
  induction m generalizing s with
  | nil => rfl
  | cons b m ih => rw [List.map_cons, execAll_cons (exec_crc16Byte b s), ih, List.foldl_cons]

/-- Settles O17: each writes a constant, and their rows take no byte, so `word_eq_of_decode` leaves one word. -/
theorem crcInitSetsItsAccumulator : Obligations.CrcInitSetsItsAccumulator :=
  ⟨exec_crc8Init, exec_crc16Init, fun _ => rfl, fun _ => rfl, rfl, rfl,
    fun _ _ _ h => ⟨word_eq_of_decode h (k := .crc8Init) rfl, word_eq_of_decode h (k := .crc16Init) rfl⟩⟩

/-- Settles O18: a buffer's bytes after CRC8_INIT make the fold that `crc8` is. -/
theorem crc8ByteFoldsItsByte : Obligations.Crc8ByteFoldsItsByte :=
  ⟨exec_crc8Byte, fun b => congrArg (Operation.mk · none) (packWord_zero_eq_or 5 b), crc8Update_self 0,
    crc8Update_self, fun m s => (execAll_cons (exec_crc8Init s)).trans (execAll_crc8Byte m _), by decide⟩

/-- Settles O19: a buffer's bytes after CRC16_INIT make the fold that `crc16` is. -/
theorem crc16ByteFoldsItsByte : Obligations.Crc16ByteFoldsItsByte :=
  ⟨exec_crc16Byte, fun b => congrArg (Operation.mk · none) (packWord_zero_eq_or 7 b), by decide, by decide,
    fun m s => (execAll_cons (exec_crc16Init s)).trans (execAll_crc16Byte m _), by decide⟩

end Sys2Proof.Machine
end

section
/-! SUPPORT. RX_BYTE on the v2 wire: the next state in each row of 41_rx_v2.md R81, as one equation for each receive
state. -/

namespace Sys2Proof.Machine

theorem le16_eq_ofNat (l h : Byte) : le16 l h = BitVec.ofNat 16 (l.toNat + 256 * h.toNat) := by
  rw [← le16_toNat, BitVec.ofNat_toNat, BitVec.setWidth_eq]

theorem lengthAccepted_iff (len : U16) : lengthAccepted len = true ↔ 1 ≤ len.toNat ∧ len.toNat ≤ 506 := by
  simp [lengthAccepted]

variable {s : State}

/-- In the v2 format RX_BYTE runs the rule of its receive state (41_rx_v2.md R66). -/
theorem exec_rxByte_of_v2 (hf : s.cfg.format = .v2) (b : Byte) : exec (.rxByte b) s = rxByteV2 b s := by
  simp [exec, execRxByte, hf]

theorem exec_rxByte_awaitHeaderByte0 (hf : s.cfg.format = .v2) (hs : s.rxState = .awaitHeaderByte0) (b : Byte) :
    exec (.rxByte b) s = .next { s with
      rxState := if b = Config.hdr0 then .awaitHeaderByte1 else .awaitHeaderByte0 } := by
  rw [exec_rxByte_of_v2 hf, rxByteV2, hs]
  simp only [rxHeader0]
  split <;> rfl

theorem exec_rxByte_awaitHeaderByte1 (hf : s.cfg.format = .v2) (hs : s.rxState = .awaitHeaderByte1) (b : Byte) :
    exec (.rxByte b) s = .next { s with
      rxState := if b = Config.hdr1 then .awaitLengthLow
                 else if b = Config.hdr0 then .awaitHeaderByte1 else .awaitHeaderByte0 } := by
  rw [exec_rxByte_of_v2 hf, rxByteV2, hs]
  simp only [rxHeader1]
  split_ifs <;> rfl

theorem exec_rxByte_awaitLengthLow (hf : s.cfg.format = .v2) (hs : s.rxState = .awaitLengthLow) (b : Byte) :
    exec (.rxByte b) s = .next { s with rxLenLo := b, rxState := .awaitLengthHigh } := by
  rw [exec_rxByte_of_v2 hf, rxByteV2, hs]
  rfl

/-- A length from 1 to 506 opens the payload. -/
theorem exec_rxByte_length_accepted (hf : s.cfg.format = .v2) (hs : s.rxState = .awaitLengthHigh) {b : Byte}
    (h₁ : 1 ≤ (le16 s.rxLenLo b).toNat) (h₂ : (le16 s.rxLenLo b).toNat ≤ 506) :
    exec (.rxByte b) s = .next { s with rxLen := le16 s.rxLenLo b, rxCount := 0, rxState := .awaitPayload } := by
  have ha : lengthAccepted (le16 s.rxLenLo b) = true := (lengthAccepted_iff _).2 ⟨h₁, h₂⟩
  rw [exec_rxByte_of_v2 hf, rxByteV2, hs]
  exact congrArg Host.Outcome.next (if_pos ha)

/-- A length of 0 or above 506 returns to the header scan. -/
theorem exec_rxByte_length_rejected (hf : s.cfg.format = .v2) (hs : s.rxState = .awaitLengthHigh) {b : Byte}
    (h : (le16 s.rxLenLo b).toNat = 0 ∨ 506 < (le16 s.rxLenLo b).toNat) :
    exec (.rxByte b) s = .next { s with rxState := .awaitHeaderByte0 } := by
  have hr : ¬ lengthAccepted (le16 s.rxLenLo b) = true := by
    rw [lengthAccepted_iff]
    omega
  rw [exec_rxByte_of_v2 hf, rxByteV2, hs]
  exact congrArg Host.Outcome.next (if_neg hr)

theorem exec_rxByte_awaitPayload (hf : s.cfg.format = .v2) (hs : s.rxState = .awaitPayload)
    (hc : s.rxCount.toNat < 506) (b : Byte) :
    exec (.rxByte b) s = .next { s with
      rxBuf := s.rxBuf.setIfInBounds s.rxCount.toNat b
      rxCount := BitVec.ofNat 16 (s.rxCount.toNat + 1)
      rxState := if s.rxCount.toNat + 1 = s.rxLen.toNat then .awaitCrcLow else .awaitPayload } := by
  have hcount : s.rxCount + 1 = BitVec.ofNat 16 (s.rxCount.toNat + 1) := by simp [BitVec.ofNat_add]
  have hlast : BitVec.ofNat 16 (s.rxCount.toNat + 1) = s.rxLen ↔ s.rxCount.toNat + 1 = s.rxLen.toNat := by
    rw [← BitVec.toNat_inj, BitVec.toNat_ofNat, Nat.mod_eq_of_lt (by omega)]
  rw [exec_rxByte_of_v2 hf, rxByteV2, hs]
  simp only [rxPayload, bufWrite_eq _ _ b hc, hcount, hlast]
  rfl

theorem exec_rxByte_awaitCrcLow (hf : s.cfg.format = .v2) (hs : s.rxState = .awaitCrcLow) (b : Byte) :
    exec (.rxByte b) s = .next { s with rxCrcLo := b, rxState := .awaitCrcHigh } := by
  rw [exec_rxByte_of_v2 hf, rxByteV2, hs]
  rfl

theorem exec_rxByte_awaitCrcHigh (hf : s.cfg.format = .v2) (hs : s.rxState = .awaitCrcHigh)
    (hl : s.rxLen.toNat ≤ 506) (b : Byte) :
    exec (.rxByte b) s = .next { s with
      events := if le16 s.rxCrcLo b = frameCrc s.rxLen (s.rxBuf.toList.take s.rxLen.toNat) then
        s.events ++ [.rxFrameV2 (s.rxBuf.toList.take s.rxLen.toNat)] else s.events
      rxState := .awaitHeaderByte0 } := by
  rw [exec_rxByte_of_v2 hf, rxByteV2, hs]
  simp only [rxCrcHigh, bufSlice_eq _ _ hl]
  split <;> rfl

/-! ### The obligations on single bytes -/

/-- Settles O22: the two states that take any byte. -/
theorem v2LowBytesAreStored : Obligations.V2LowBytesAreStored := fun b _ hf =>
  ⟨fun hs => exec_rxByte_awaitLengthLow hf hs b, fun hs => exec_rxByte_awaitCrcLow hf hs b⟩

/-- Settles O23: the length is `le16_toNat` of the two bytes, and a high byte of 2 or more makes it 512 or more. -/
theorem v2LengthIsCheckedWhenBothBytesAreThere : Obligations.V2LengthIsCheckedWhenBothBytesAreThere := by
  intro b s hf hs n
  have hn : (le16 s.rxLenLo b).toNat = n := le16_toNat ..
  have hrej (h : n = 0 ∨ 506 < n) : exec (.rxByte b) s = .next { s with rxState := .awaitHeaderByte0 } :=
    exec_rxByte_length_rejected hf hs (by rwa [hn])
  refine ⟨hrej, fun h₁ h₂ => ?_, fun hb => hrej (.inr (by omega))⟩
  rw [← le16_eq_ofNat]
  exact exec_rxByte_length_accepted hf hs (by omega) (by omega)

/-- Settles O25: the two bytes equal the expected CRC exactly where they make its number, and a word equals its
byte-swapped form exactly where `le16_eq_iff` makes its two bytes equal. -/
theorem v2CrcDecidesDelivery : Obligations.V2CrcDecidesDelivery := by
  constructor
  · intro b s hf hs hl payload expected
    have hcrc : le16 s.rxCrcLo b = frameCrc s.rxLen payload ↔
        s.rxCrcLo.toNat + 256 * b.toNat = expected.toNat := by
      rw [← le16_toNat]
      exact BitVec.toNat_inj.symm
    rw [exec_rxByte_awaitCrcHigh hf hs hl]
    exact ⟨fun h => by rw [if_pos (hcrc.2 h)], fun h => by rw [if_neg (mt hcrc.1 h)]⟩
  · intro v
    rw [le16_eq_iff]
    exact ⟨fun ⟨_, h⟩ => h, fun h => ⟨h.symm, h⟩⟩

end Sys2Proof.Machine
end

section
/-! SUPPORT. What the v2 reassembler does with a header, a payload and a whole frame, whatever CRC bytes end it
(41_rx_v2.md R67 to R72). -/

namespace Sys2Proof.Machine

variable {s : State}

/-! ### The header (41_rx_v2.md R67) -/

/-- Repeated first header bytes change nothing while the second one is awaited. -/
theorem feed_replicate_hdr0 (hf : s.cfg.format = .v2) (hs : s.rxState = .awaitHeaderByte1) (n : Nat) :
    feed (List.replicate n Config.hdr0) s = .next s := by
  have hstay : exec (.rxByte Config.hdr0) s = .next s := by
    rw [exec_rxByte_awaitHeaderByte1 hf hs]
    exact congrArg (fun q => Host.Outcome.next { s with rxState := q }) hs.symm
  induction n with
  | zero => rfl
  | succ n ih => rw [List.replicate_succ, feed_cons hstay, ih]

theorem feed_header (hf : s.cfg.format = .v2) (hs : s.rxState = .awaitHeaderByte0) (n : Nat) :
    feed (List.replicate (n + 1) Config.hdr0 ++ [Config.hdr1]) s = .next { s with rxState := .awaitLengthLow } := by
  have hfirst := exec_rxByte_awaitHeaderByte0 hf hs Config.hdr0
  have hrun := feed_replicate_hdr0 (s := { s with rxState := .awaitHeaderByte1 }) hf rfl n
  have hsecond := exec_rxByte_awaitHeaderByte1 (s := { s with rxState := .awaitHeaderByte1 }) hf rfl Config.hdr1
  exact (feed_cons hfirst).trans ((feed_append hrun).trans (feed_cons hsecond))

/-- Settles O21: one byte in each header state, and `feed_header` for the run. -/
theorem v2HeaderScan : Obligations.V2HeaderScan := fun _ hf =>
  ⟨fun b hs => exec_rxByte_awaitHeaderByte0 hf hs b, fun b hs => exec_rxByte_awaitHeaderByte1 hf hs b,
    fun n hs => feed_header hf hs n⟩

/-- A header with a length that is not accepted leaves nothing but its low length byte (41_rx_v2.md R69, R78). -/
theorem feed_header_rejected (hf : s.cfg.format = .v2) (hs : s.rxState = .awaitHeaderByte0) {l h : Byte}
    (hl : (le16 l h).toNat = 0 ∨ 506 < (le16 l h).toNat) :
    feed [Config.hdr0, Config.hdr1, l, h] s = .next { s with rxLenLo := l, rxState := .awaitHeaderByte0 } := by
  have hlow := exec_rxByte_awaitLengthLow (s := { s with rxState := .awaitLengthLow }) hf rfl l
  have hhigh := exec_rxByte_length_rejected (s := { s with rxLenLo := l, rxState := .awaitLengthHigh }) hf rfl hl
  exact (feed_append (feed_header hf hs 0)).trans ((feed_cons hlow).trans (feed_cons hhigh))

/-! ### The payload (41_rx_v2.md R70) -/

theorem take_succ_set {α : Type*} {l : List α} {n : Nat} (h : n < l.length) (a : α) :
    (l.set n a).take (n + 1) = l.take n ++ [a] := by
  rw [List.take_add_one, List.take_set_of_le le_rfl, List.getElem?_set_self h, Option.toList_some]

/-- Payload bytes are stored one after another from the count on, and the one that reaches the length moves on to the
CRC. The hypothesis on the receive state is what the conclusion says of the state after the bytes. -/
theorem feed_payload (q : List Byte) (hf : s.cfg.format = .v2)
    (hs : s.rxState = if s.rxCount.toNat = s.rxLen.toNat then .awaitCrcLow else .awaitPayload)
    (hl : s.rxLen.toNat ≤ 506) (hq : s.rxCount.toNat + q.length ≤ s.rxLen.toNat) :
    ∃ buf : Vector Byte Config.maxPayload,
      buf.toList = s.rxBuf.toList.take s.rxCount.toNat ++ q ++ s.rxBuf.toList.drop (s.rxCount.toNat + q.length) ∧
      feed q s = .next { s with
        rxBuf := buf
        rxCount := BitVec.ofNat 16 (s.rxCount.toNat + q.length)
        rxState := if s.rxCount.toNat + q.length = s.rxLen.toNat then .awaitCrcLow else .awaitPayload } := by
  induction q generalizing s with
  | nil => exact ⟨s.rxBuf, by simp, by simp [← hs]⟩
  | cons b q ih =>
    rw [List.length_cons] at hq
    have hcount : (BitVec.ofNat 16 (s.rxCount.toNat + 1)).toNat = s.rxCount.toNat + 1 := by
      rw [BitVec.toNat_ofNat, Nat.mod_eq_of_lt (by omega)]
    have hin : s.rxCount.toNat < s.rxBuf.toList.length := by
      rw [Vector.length_toList]
      exact (show s.rxCount.toNat < 506 by omega)
    have hstep := exec_rxByte_awaitPayload hf (hs.trans (if_neg (by omega))) (by omega) b
    obtain ⟨buf, hbuf, hfeed⟩ := ih (s := { s with
      rxBuf := s.rxBuf.setIfInBounds s.rxCount.toNat b
      rxCount := BitVec.ofNat 16 (s.rxCount.toNat + 1)
      rxState := if s.rxCount.toNat + 1 = s.rxLen.toNat then .awaitCrcLow else .awaitPayload })
      hf (by simp only [hcount]) hl (by simp only [hcount]; omega)
    have hadd : s.rxCount.toNat + 1 + q.length = s.rxCount.toNat + (q.length + 1) := by omega
    simp only [hcount, hadd, Vector.toList_setIfInBounds] at hbuf hfeed
    rw [take_succ_set hin, List.drop_set_of_lt (by omega), List.append_assoc _ [b]] at hbuf
    exact ⟨buf, hbuf, (feed_cons hstep).trans hfeed⟩

/-! ### The whole frame -/

/-- A frame with any CRC bytes after any number of extra first header bytes: its payload is delivered exactly when the
CRC bytes are those of its length and payload, and the machine is back in the header scan. -/
theorem feed_frame (n : Nat) (len crc : U16) (q : List Byte) (hf : s.cfg.format = .v2)
    (hs : s.rxState = .awaitHeaderByte0) (hlen : len.toNat = q.length) (h₁ : 1 ≤ q.length) (h₂ : q.length ≤ 506) :
    ∃ buf : Vector Byte Config.maxPayload,
      buf.toList = q ++ s.rxBuf.toList.drop q.length ∧
      feed (List.replicate n Config.hdr0 ++
          ([Config.hdr0, Config.hdr1, lo len, hi len] ++ q ++ [lo crc, hi crc])) s =
        .next { s with
          events := if crc = frameCrc len q then s.events ++ [.rxFrameV2 q] else s.events
          rxState := .awaitHeaderByte0
          rxLenLo := lo len
          rxLen := len
          rxCount := len
          rxBuf := buf
          rxCrcLo := lo crc } := by
  have hl : len.toNat ≤ 506 := hlen.trans_le h₂
  have hlow := exec_rxByte_awaitLengthLow (s := { s with rxState := .awaitLengthLow }) hf rfl (lo len)
  have hhigh := exec_rxByte_length_accepted (s := { s with rxLenLo := lo len, rxState := .awaitLengthHigh })
    (b := hi len) hf rfl (by simpa [hlen] using h₁) (by simpa using hl)
  obtain ⟨buf, hbuf, hpayload⟩ := feed_payload q (s := { s with
    rxLenLo := lo len, rxLen := len, rxCount := 0, rxState := .awaitPayload })
    hf (if_neg (show ¬ 0 = len.toNat by omega)).symm hl (by simp [hlen])
  have htake : buf.toList.take len.toNat = q := by simp [hbuf, hlen]
  have hcrcLow := exec_rxByte_awaitCrcLow (s := { s with
    rxLenLo := lo len, rxLen := len, rxCount := len, rxBuf := buf, rxState := .awaitCrcLow }) hf rfl (lo crc)
  have hcrcHigh := exec_rxByte_awaitCrcHigh (s := { s with
    rxLenLo := lo len, rxLen := len, rxCount := len, rxBuf := buf, rxCrcLo := lo crc, rxState := .awaitCrcHigh })
    hf rfl hl (hi crc)
  simp only [le16_lo_hi, htake] at hhigh hcrcHigh
  simp only [BitVec.ofNat_eq_ofNat, BitVec.toNat_ofNat, Nat.reducePow, Nat.zero_mod, ← hlen, zero_add, ↓reduceIte,
    BitVec.ofNat_toNat, BitVec.setWidth_eq] at hpayload
  refine ⟨buf, by simpa using hbuf, ?_⟩
  have hhead := feed_append (cs := [lo len, hi len] ++ q ++ [lo crc, hi crc]) (feed_header hf hs n)
  rw [List.replicate_succ', List.append_assoc, List.append_assoc] at hhead
  exact hhead.trans ((feed_cons hlow).trans ((feed_cons hhigh).trans ((feed_append hpayload).trans
    ((feed_cons hcrcLow).trans (feed_cons hcrcHigh)))))

/-- A well-formed frame is delivered once, whatever number of extra first header bytes stand before it (41_rx_v2.md R75,
R77). -/
theorem feed_v2Frame_delivers (n : Nat) {p : List Byte} (hf : s.cfg.format = .v2) (hs : s.rxState = .awaitHeaderByte0)
    (h₁ : 1 ≤ p.length) (h₂ : p.length ≤ 506) :
    ∃ t, feed (List.replicate n Config.hdr0 ++ v2Frame p) s = .next t ∧ t.events = s.events ++ [.rxFrameV2 p] ∧
      t.rxState = .awaitHeaderByte0 := by
  obtain ⟨_, -, hfeed⟩ := feed_frame n (lengthField p) (frameCrc (lengthField p) p) p hf hs (lengthField_toNat h₂) h₁ h₂
  exact ⟨_, hfeed, if_pos rfl, rfl⟩

/-! ### The obligations on frames -/

/-- Settles O29: the extra first header byte is one of those `feed_v2Frame_delivers` allows. -/
theorem v2ResynchronisesOnARepeatedHeaderByte : Obligations.V2ResynchronisesOnARepeatedHeaderByte :=
  fun _ _ hf hs h₁ h₂ => feed_v2Frame_delivers 1 hf hs h₁ h₂

/-- Settles O30: the rejected header leaves a state in the header scan, from which the frame is fed. -/
theorem v2RejectedLengthThenValidFrame : Obligations.V2RejectedLengthThenValidFrame := by
  intro s l h p hf hs hl h₁ h₂
  have hrej := feed_header_rejected hf hs (l := l) (h := h) (by rwa [le16_toNat])
  obtain ⟨t, hfeed, ht⟩ :=
    feed_v2Frame_delivers 0 (s := { s with rxLenLo := l, rxState := .awaitHeaderByte0 }) hf rfl h₁ h₂
  exact ⟨hrej, t, (feed_append hrej).trans hfeed, ht⟩

end Sys2Proof.Machine
end

section
/-! SUPPORT. The CRC-16 of a buffer changes with any one byte of it: no pass of 40_crc.md R60 loses information. -/

namespace Sys2Proof.Machine

/-- The polynomial is odd and a doubled word is even, so a pass that takes the polynomial never answers zero. -/
theorem crc16Shift_eq_zero {a : U16} (h : crc16Shift a = 0) : a = 0 := by
  have hn : (crc16Shift a).toNat = 0 := by rw [h]; rfl
  rw [crc16Shift_toNat] at hn
  apply BitVec.eq_of_toNat_eq
  show a.toNat = 0
  split at hn
  · have hodd : 2 * a.toNat % 65536 = 0x1021 := Nat.xor_eq_zero_iff.1 hn
    omega
  · omega

/-- A linear map with a zero kernel is injective. -/
theorem crc16Shift_injective : Function.Injective crc16Shift := fun x y h =>
  BitVec.xor_eq_zero_iff.1 (crc16Shift_eq_zero (by rw [crc16Shift_xor, h, BitVec.xor_self]; rfl))

theorem topByte_injective : Function.Injective fun b : Byte => b.setWidth 16 <<< 8 := by
  intro b c h
  have hn := congrArg BitVec.toNat h
  simp only [setWidth_shiftLeft_toNat _ (show 8 + 8 ≤ 16 by decide)] at hn
  exact BitVec.eq_of_toNat_eq (by omega)

theorem crc16Update_left_injective (b : Byte) : Function.Injective (crc16Update · b) := fun _ _ h =>
  (BitVec.xor_left_inj _).1 (crc16Shift_injective.iterate 8 h)

theorem crc16Update_right_injective (acc : U16) : Function.Injective (crc16Update acc) := fun _ _ h =>
  topByte_injective ((BitVec.xor_right_inj _).1 (crc16Shift_injective.iterate 8 h))

theorem foldl_crc16Update_injective (m : List Byte) : Function.Injective fun acc : U16 => m.foldl crc16Update acc := by
  induction m with
  | nil => exact fun _ _ h => h
  | cons b m ih => exact ih.comp (crc16Update_left_injective b)

/-- Two buffers that differ in at most one byte and have one CRC-16 are equal there too. -/
theorem byte_eq_of_crc16_eq {before after : List Byte} {a b : Byte}
    (h : crc16 (before ++ a :: after) = crc16 (before ++ b :: after)) : a = b := by
  simp only [crc16, List.foldl_append, List.foldl_cons] at h
  exact crc16Update_right_injective _ (foldl_crc16Update_injective after h)

theorem xor_twoPow_ne (b : Byte) {k : Nat} (h : k < 8) : b ^^^ BitVec.twoPow 8 k ≠ b := by
  intro e
  have hk := congrArg (BitVec.getLsbD · k) e
  simp [h] at hk

theorem frameCrc_flipBit_ne (len : U16) {p : List Byte} {i k : Nat} (hi : i < p.length) (hk : k < 8) :
    frameCrc len (flipBit p i k) ≠ frameCrc len p := by
  obtain ⟨before, b, after, rfl, -, hflip⟩ := List.exists_of_modify (· ^^^ BitVec.twoPow 8 k) hi
  rw [flipBit, hflip, frameCrc, frameCrc, ← List.append_assoc, ← List.append_assoc]
  exact fun h => xor_twoPow_ne b hk (byte_eq_of_crc16_eq h)

@[simp] theorem flipBit_length (p : List Byte) (i k : Nat) : (flipBit p i k).length = p.length :=
  List.length_modify ..

/-- Settles O28: the frame is fed as any other, and its CRC is not that of the flipped payload. -/
theorem v2SingleBitPayloadErrorIsDropped : Obligations.V2SingleBitPayloadErrorIsDropped := by
  intro s p i k hf hs h₁ h₂ hi hk
  have hlen : (lengthField p).toNat = (flipBit p i k).length := by rw [flipBit_length, lengthField_toNat h₂]
  obtain ⟨_, -, hfeed⟩ := feed_frame 0 (lengthField p) (frameCrc (lengthField p) p) (flipBit p i k) hf hs hlen
    (by rwa [flipBit_length]) (by rwa [flipBit_length])
  exact ⟨_, hfeed, if_neg (frameCrc_flipBit_ne _ hi hk).symm, rfl, rfl⟩

end Sys2Proof.Machine
end

section
/-! SUPPORT. RX_BYTE on the legacy wire: the next state in each row of 42_rx_legacy.md R89 as one equation, and what the
reassembler does with the bytes of one window. -/

namespace Sys2Proof.Machine

variable {s : State}

/-! ### One byte -/

theorem exec_rxByte_of_legacy (hf : s.cfg.format = .legacy) (b : Byte) :
    exec (.rxByte b) s = .next (rxByteLegacy b s) := by
  rw [exec, execRxByte, hf]

theorem exec_rxByte_window (hf : s.cfg.format = .legacy) (hi : s.lgIdx.val < 7) (b : Byte) :
    exec (.rxByte b) s = .next { s with lgWin := winWrite s.lgWin s.lgIdx b, lgIdx := s.lgIdx + 1 } := by
  rw [exec_rxByte_of_legacy hf, rxByteLegacy, if_pos (show _ < Config.legacyContentLen from hi), rxWindowByte]

theorem exec_rxByte_trailer_match (hf : s.cfg.format = .legacy) (h7 : s.lgIdx = 7) {b : Byte}
    (hb : b = crc8 s.lgWin.toList) :
    exec (.rxByte b) s = .next { s with events := s.events ++ [.rxCmdLegacy s.lgWin.toList], lgIdx := 0 } := by
  rw [exec_rxByte_of_legacy hf, rxByteLegacy, if_neg (by simp [h7]), rxWindowTrailer, if_pos hb]
  rfl

theorem exec_rxByte_trailer_mismatch (hf : s.cfg.format = .legacy) (h7 : s.lgIdx = 7) {b : Byte}
    (hb : b ≠ crc8 s.lgWin.toList) : exec (.rxByte b) s = .next { s with crcErrLatch := true, lgIdx := 0 } := by
  rw [exec_rxByte_of_legacy hf, rxByteLegacy, if_neg (by simp [h7]), rxWindowTrailer, if_neg hb]
  rfl

theorem lgIdx_succ_val {i : Fin Config.legacyCmdLen} (h : i.val < 7) : (i + 1).val = i.val + 1 :=
  Fin.val_add_one_of_lt (n := 7) h

/-- Settles O34: the byte is written at the index, `winWrite_getElem?` reads the window back, and below 7 the index does
not wrap. -/
theorem legacyWindowBytesAreStored : Obligations.LegacyWindowBytesAreStored := fun b s hf hi =>
  ⟨_, exec_rxByte_window hf hi b, rfl, lgIdx_succ_val hi, fun i =>
    (winWrite_getElem? s.lgWin s.lgIdx b hi i).trans (if_congr eq_comm rfl rfl)⟩

/-! ### A whole window -/

/-- Bytes that fit in the window are stored one after another from the index on. -/
theorem feed_window (q : List Byte) (hf : s.cfg.format = .legacy) (hq : s.lgIdx.val + q.length ≤ 7) :
    ∃ (idx : Fin Config.legacyCmdLen) (win : Vector Byte Config.legacyContentLen),
      idx.val = s.lgIdx.val + q.length ∧
      win.toList = s.lgWin.toList.take s.lgIdx.val ++ q ++ s.lgWin.toList.drop (s.lgIdx.val + q.length) ∧
      feed q s = .next { s with lgWin := win, lgIdx := idx } := by
  induction q generalizing s with
  | nil => exact ⟨s.lgIdx, s.lgWin, rfl, by simp, rfl⟩
  | cons b q ih =>
    rw [List.length_cons] at hq
    have hi : s.lgIdx.val < 7 := by omega
    have hnext := lgIdx_succ_val hi
    obtain ⟨idx, win, hidx, hwin, hfeed⟩ := ih
      (s := { s with lgWin := winWrite s.lgWin s.lgIdx b, lgIdx := s.lgIdx + 1 }) hf
      (by rw [hnext]; omega)
    have hin : s.lgIdx.val < s.lgWin.toList.length := by rwa [Vector.length_toList]
    have hadd : s.lgIdx.val + 1 + q.length = s.lgIdx.val + (q.length + 1) := by omega
    simp only [hnext, hadd, winWrite_toList _ _ b hi] at hidx hwin
    rw [take_succ_set hin, List.drop_set_of_lt (by omega), List.append_assoc _ [b]] at hwin
    exact ⟨idx, win, hidx, hwin, (feed_cons (exec_rxByte_window hf hi b)).trans hfeed⟩

/-- Seven bytes from position 0 fill the window, whatever it held. -/
theorem feed_content {c : List Byte} (hf : s.cfg.format = .legacy) (h0 : s.lgIdx = 0) (hc : c.length = 7) :
    ∃ win : Vector Byte Config.legacyContentLen,
      win.toList = c ∧ feed c s = .next { s with lgWin := win, lgIdx := 7 } := by
  obtain ⟨idx, win, hidx, hwin, hfeed⟩ := feed_window c hf (by simp [h0, hc])
  have h7 : idx = 7 := Fin.ext (by simp [hidx, h0, hc])
  have hrest : s.lgWin.toList.drop 7 = [] := List.drop_of_length_le Vector.length_toList.le
  exact ⟨win, by simpa [h0, hc, hrest] using hwin, h7 ▸ hfeed⟩

/-- A command frame from position 0 is delivered, and the machine is back at position 0 (42_rx_legacy.md R84). -/
theorem feed_legacyCommandFrame {c : List Byte} (hf : s.cfg.format = .legacy) (h0 : s.lgIdx = 0)
    (hc : c.length = 7) :
    ∃ win : Vector Byte Config.legacyContentLen,
      win.toList = c ∧
      feed (legacyCommandFrame c) s =
        .next { s with events := s.events ++ [.rxCmdLegacy c], lgWin := win, lgIdx := 0 } := by
  obtain ⟨win, rfl, hfeed⟩ := feed_content hf h0 hc
  have htrailer := exec_rxByte_trailer_match (s := { s with lgWin := win, lgIdx := 7 }) hf rfl rfl
  exact ⟨win, rfl, (feed_append hfeed).trans (feed_cons htrailer)⟩

theorem replicate_zero_eq_legacyCommandFrame :
    List.replicate 8 (0x00 : Byte) = legacyCommandFrame (List.replicate 7 0x00) := by
  rw [legacyCommandFrame, crc8_replicate_zero]
  rfl

/-- A trailer byte delivers the window only when it is the window's CRC-8. -/
theorem trailer_delivers_iff (hf : s.cfg.format = .legacy) (h7 : s.lgIdx = 7) (b : Byte) :
    (∃ t, exec (.rxByte b) s = .next t ∧ t.events = s.events ++ [.rxCmdLegacy s.lgWin.toList]) ↔
      b = crc8 s.lgWin.toList := by
  constructor
  · rintro ⟨t, ht, hevents⟩
    by_contra hb
    rw [exec_rxByte_trailer_mismatch hf h7 hb] at ht
    cases ht
    simp at hevents
  · exact fun hb => ⟨_, exec_rxByte_trailer_match hf h7 hb, rfl⟩

/-- Settles O35: one equation for a match and one for a mismatch; eight zero bytes are the command frame of seven. -/
theorem legacyTrailerDecides : Obligations.LegacyTrailerDecides := by
  refine fun s hf => ⟨fun h7 => ⟨fun b => exec_rxByte_trailer_match hf h7, fun b => exec_rxByte_trailer_mismatch hf h7,
    (trailer_delivers_iff hf h7 0x00).trans eq_comm⟩, fun h0 => ?_⟩
  obtain ⟨_, -, hfeed⟩ := feed_legacyCommandFrame hf h0 (List.length_replicate (n := 7) (a := (0x00 : Byte)))
  rw [replicate_zero_eq_legacyCommandFrame]
  exact ⟨_, hfeed, rfl, rfl⟩

end Sys2Proof.Machine
end

section
/-! SUPPORT. The checksum-error latch through each operation (10_state.md R16, 42_rx_legacy.md R87). -/

namespace Sys2Proof.Machine

/-! ### One received byte -/

/-- The registers that a byte received on the v2 wire can write (41_rx_v2.md R66); everything else stays. -/
theorem rxByteV2_frame {b : Byte} {s t : State} (h : rxByteV2 b s = .next t) :
    t = { s with
      rxState := t.rxState, rxLenLo := t.rxLenLo, rxLen := t.rxLen, rxCount := t.rxCount, rxBuf := t.rxBuf
      rxCrcLo := t.rxCrcLo, events := t.events } := by
  obtain ⟨-, rfl⟩ | ⟨-, rfl⟩ | ⟨-, rfl⟩ | ⟨-, rfl⟩ | ⟨-, -, rfl⟩ | ⟨-, rfl⟩ | ⟨-, -, rfl⟩ := rxByteV2_cases h
  · unfold rxHeader0; split <;> rfl
  · unfold rxHeader1; split_ifs <;> rfl
  · rfl
  · unfold rxLengthHigh; split <;> rfl
  · rfl
  · rfl
  · split <;> rfl

theorem errorCondition_trailer_mismatch {b : Byte} {s : State} (hf : s.cfg.format = .legacy) (h7 : s.lgIdx = 7)
    (hb : b ≠ crc8 s.lgWin.toList) : errorCondition b s = some .legacyCrcMismatch := by
  simp [errorCondition, hf, h7, hb]

/-- A received byte keeps the latch, or sets it at a legacy mismatch. -/
theorem execRxByte_crcErrLatch {b : Byte} {s t : State} (h : execRxByte b s = .next t) :
    t.crcErrLatch = s.crcErrLatch ∨ (t.crcErrLatch = true ∧ errorCondition b s = some .legacyCrcMismatch) := by
  unfold execRxByte at h
  cases hf : s.cfg.format <;> simp only [hf] at h
  case v2 => exact .inl (congrArg State.crcErrLatch (rxByteV2_frame h) :)
  case legacy =>
    cases h
    obtain ⟨-, e⟩ | ⟨-, -, e⟩ | ⟨h7, hb, e⟩ := rxByteLegacy_cases b s <;> rw [e]
    · exact .inl rfl
    · exact .inl rfl
    · exact .inr ⟨rfl, errorCondition_trailer_mismatch hf h7 hb⟩

/-! ### One framer operation -/

theorem execTxSendV2_crcErrLatch {p : List Byte} {s t : State} (h : execTxSendV2 p s = .next t) :
    t.crcErrLatch = s.crcErrLatch := by
  obtain ⟨-, e⟩ | ⟨-, -, e⟩ | ⟨-, -, e⟩ := execTxSendV2_cases p s <;>
  · rw [e] at h
    cases h
    rfl

/-- A refused response keeps the latch, and an emitted one does to it what `reportLatch` does (43_tx_framer.md R95). -/
theorem execTxSendLegacy_crcErrLatch {body : List Byte} {s t : State} (h : execTxSendLegacy body s = .next t) :
    t.crcErrLatch = s.crcErrLatch ∨ (t.crcErrLatch = false ∧ s.cfg.clearLatchOnReport = true) := by
  obtain ⟨-, e⟩ | ⟨-, -, e⟩ | ⟨-, -, e⟩ := execTxSendLegacy_cases body s <;> rw [e] at h <;> cases h
  · exact .inl rfl
  · exact .inl rfl
  · cases hc : s.cfg.clearLatchOnReport <;> simp [hc]

/-! ### Any operation -/

/-- All that an operation can do to the latch: keep it, clear it by one of the three operations that may, or set it at a
legacy mismatch. -/
theorem exec_crcErrLatch_cases {i : Instr} {s t : State} (h : exec i s = .next t) :
    t.crcErrLatch = s.crcErrLatch ∨
    (t.crcErrLatch = false ∧
      (i = .clearCrcErr ∨ i = .reset ∨ ((∃ body, i = .txSendLegacy body) ∧ s.cfg.clearLatchOnReport = true))) ∨
    (t.crcErrLatch = true ∧ ∃ b, i = .rxByte b ∧ errorCondition b s = some .legacyCrcMismatch) := by
  cases i with
  | rxByte b =>
    exact (execRxByte_crcErrLatch h).imp_right fun ⟨hset, herr⟩ => .inr ⟨hset, b, rfl, herr⟩
  | txSendV2 p => exact .inl (execTxSendV2_crcErrLatch h)
  | txSendLegacy body =>
    exact (execTxSendLegacy_crcErrLatch h).imp_right fun ⟨hclear, hc⟩ => .inl ⟨hclear, .inr (.inr ⟨⟨body, rfl⟩, hc⟩)⟩
  | crc8Init | crc8Byte | crc16Init | crc16Byte => cases h; exact .inl rfl
  | clearCrcErr => cases h; exact .inr (.inl ⟨rfl, .inl rfl⟩)
  | reset => cases h; exact .inr (.inl ⟨by simp, .inr (.inl rfl)⟩)

/-- Settles O37: a latch that changed was not kept, so it was cleared or set as `exec_crcErrLatch_cases` says. -/
theorem latchIsSticky : Obligations.LatchIsSticky := by
  intro i s t h
  obtain hkeep | ⟨hclear, hi⟩ | ⟨hset, hi⟩ := exec_crcErrLatch_cases h
  · exact ⟨fun hs ht => by simp [hkeep, hs] at ht, fun hs ht => by simp [hkeep, hs] at ht⟩
  · exact ⟨fun _ _ => hi, fun _ ht => by simp [hclear] at ht⟩
  · exact ⟨fun _ ht => by simp [hset] at ht, fun _ _ => hi⟩

end Sys2Proof.Machine
end

section
/-! SUPPORT. The framer's output fed back to the reassembler of the same instance (43_tx_framer.md R96). -/

namespace Sys2Proof.Machine

/-- TX_SEND_V2 of a payload the v2 instance takes emits its frame (43_tx_framer.md R91). -/
theorem exec_txSendV2_emits {p : List Byte} {s : State} (hf : s.cfg.format = .v2) (h₁ : 1 ≤ p.length)
    (h₂ : p.length ≤ 506) : exec (.txSendV2 p) s = .next (emit (.txBytes (v2Frame p)) s) :=
  execTxSendV2_of_wellFormed (by simp [Instr.wellFormed, hf, h₁, h₂])

@[simp] theorem legacyCommandFrame_length (content : List Byte) :
    (legacyCommandFrame content).length = content.length + 1 := List.length_append

@[simp] theorem legacyResponseFrame_length (body : List Byte) :
    (legacyResponseFrame body).length = body.length + 1 := List.length_append

/-- Settles O46: emitting the frame leaves the receiver in the header scan, so `feed_v2Frame_delivers` applies with no
extra header byte before the frame; a legacy frame is one byte longer than what it carries. -/
theorem framerReassemblerLoopback : Obligations.FramerReassemblerLoopback := by
  constructor
  · intro s p hf hs h₁ h₂
    have hsend := exec_txSendV2_emits hf h₁ h₂
    obtain ⟨u, hfeed, hu⟩ := feed_v2Frame_delivers 0 (s := emit (.txBytes (v2Frame p)) s) hf hs h₁ h₂
    exact ⟨v2Frame p, _, u, hsend, rfl, hfeed, hu⟩
  · intro body content hb hc
    exact ⟨by rw [legacyResponseFrame_length, hb], by rw [legacyCommandFrame_length, hc]⟩

end Sys2Proof.Machine
end

section
/-! SUPPORT. The control operations, each as one equation (44_control.md R98, R99). -/

namespace Sys2Proof.Machine

@[simp] theorem exec_clearCrcErr (s : State) : exec .clearCrcErr s = .next { s with crcErrLatch := false } := rfl

theorem resetReceiver_of_v2 {s : State} (hf : s.cfg.format = .v2) :
    resetReceiver s = { s with rxState := .awaitHeaderByte0 } := by
  rw [resetReceiver, hf, rxGoto]

theorem resetReceiver_of_legacy {s : State} (hf : s.cfg.format = .legacy) :
    resetReceiver s = { s with lgIdx := 0 } := by
  rw [resetReceiver, hf]

@[simp] theorem exec_reset (s : State) :
    exec .reset s = .next (resetReceiver { s with crcErrLatch := false, crc8Acc := 0x00, crc16Acc := 0xFFFF }) := rfl

/-- Settles O47: clearing keeps the window and the position, so a mismatching trailer after it still sets the latch
(`exec_rxByte_trailer_mismatch`). -/
theorem clearCrcErrClearsOnlyTheLatch : Obligations.ClearCrcErrClearsOnlyTheLatch := by
  refine ⟨exec_clearCrcErr, fun _ => rfl, fun b s hf h7 hb => ?_, rfl⟩
  have htrailer := exec_rxByte_trailer_mismatch (s := { s with crcErrLatch := false }) hf h7 hb
  exact ⟨_, (execAll_cons (exec_clearCrcErr s)).trans (execAll_cons htrailer), rfl⟩

/-- Settles O48: RESET clears the latch and both accumulators and then resets the receiver of the instance's format. -/
theorem resetWritesExactlyTheResetState : Obligations.ResetWritesExactlyTheResetState :=
  ⟨fun s hf => (exec_reset s).trans (congrArg Host.Outcome.next (resetReceiver_of_v2 hf)),
    fun s hf => (exec_reset s).trans (congrArg Host.Outcome.next (resetReceiver_of_legacy hf)), rfl⟩

end Sys2Proof.Machine
end

section
/-! SUPPORT. The error conditions of 60_exceptions.md R103: the cause of each as a condition on the byte and the receive
state, and the next state of the RX_BYTE that meets it. -/

namespace Sys2Proof.Machine

/-- The cause column of 60_exceptions.md R103, with the receive state of its detected-by column. -/
def errorCause (b : Byte) (s : State) : ErrorCondition → Prop
  | .v2BadHeader => s.cfg.format = .v2 ∧
      ((s.rxState = .awaitHeaderByte0 ∧ b ≠ Config.hdr0) ∨
        (s.rxState = .awaitHeaderByte1 ∧ b ≠ Config.hdr1 ∧ b ≠ Config.hdr0))
  | .v2BadLength => s.cfg.format = .v2 ∧ s.rxState = .awaitLengthHigh ∧
      (s.rxLenLo.toNat + 256 * b.toNat = 0 ∨ 506 < s.rxLenLo.toNat + 256 * b.toNat)
  | .v2CrcMismatch => s.cfg.format = .v2 ∧ s.rxState = .awaitCrcHigh ∧ s.rxLen.toNat ≤ 506 ∧
      s.rxCrcLo.toNat + 256 * b.toNat ≠
        (crc16 ([lo s.rxLen, hi s.rxLen] ++ s.rxBuf.toList.take s.rxLen.toNat)).toNat
  | .legacyCrcMismatch => s.cfg.format = .legacy ∧ s.lgIdx = 7 ∧ b ≠ crc8 s.lgWin.toList

variable {b : Byte} {s : State} {c : ErrorCondition}

/-! ### When a byte meets a condition -/

/-- In LH a condition is met exactly where the length of the two bytes is 0 or above 506. -/
theorem errorConditionV2_awaitLengthHigh_iff (hs : s.rxState = .awaitLengthHigh) :
    errorConditionV2 b s = some c ↔
      (s.rxLenLo.toNat + 256 * b.toNat = 0 ∨ 506 < s.rxLenLo.toNat + 256 * b.toNat) ∧ .v2BadLength = c := by
  have hrej : ¬ lengthAccepted (le16 s.rxLenLo b) = true ↔
      s.rxLenLo.toNat + 256 * b.toNat = 0 ∨ 506 < s.rxLenLo.toNat + 256 * b.toNat := by
    rw [lengthAccepted_iff, le16_toNat]
    omega
  rw [errorConditionV2, hs, ← hrej, ← Option.some_inj (b := c)]
  exact Option.ite_none_left_eq_some

/-- In CH a condition is met exactly where the buffer holds the payload and the two CRC bytes differ from its CRC. -/
theorem errorConditionV2_awaitCrcHigh_iff (hs : s.rxState = .awaitCrcHigh) :
    errorConditionV2 b s = some c ↔ s.rxLen.toNat ≤ 506 ∧
      s.rxCrcLo.toNat + 256 * b.toNat ≠ (frameCrc s.rxLen (s.rxBuf.toList.take s.rxLen.toNat)).toNat ∧
      .v2CrcMismatch = c := by
  rw [errorConditionV2, hs, ← le16_toNat, ne_eq, BitVec.toNat_inj]
  obtain ⟨hl, e⟩ | ⟨hl, e⟩ := bufSlice_cases s.rxBuf s.rxLen
  · simp [e, show s.rxLen.toNat ≤ 506 from hl]
  · simp [e, show ¬ s.rxLen.toNat ≤ 506 from Nat.not_le.2 hl]

/-- The v2 conditions belong to disjoint receive states (60_exceptions.md R109), so the receive state leaves one cause
to compare. -/
theorem errorConditionV2_eq_some_iff (hf : s.cfg.format = .v2) :
    errorConditionV2 b s = some c ↔ errorCause b s c := by
  cases hs : s.rxState
  case awaitHeaderByte0 | awaitHeaderByte1 => cases c <;> simp [errorConditionV2, errorCause, hf, hs]
  case awaitLengthHigh =>
    rw [errorConditionV2_awaitLengthHigh_iff hs]
    cases c <;> simp [errorCause, hf, hs]
  case awaitCrcHigh =>
    rw [errorConditionV2_awaitCrcHigh_iff hs]
    cases c <;> simp [errorCause, hf, hs, frameCrc]
  case awaitLengthLow | awaitPayload | awaitCrcLow => cases c <;> simp [errorConditionV2, errorCause, hf, hs]

/-- RX_BYTE meets a condition of 60_exceptions.md R103 exactly where its cause holds. -/
theorem errorCondition_eq_some_iff : errorCondition b s = some c ↔ errorCause b s c := by
  cases hf : s.cfg.format
  case v2 =>
    rw [errorCondition, hf]
    exact errorConditionV2_eq_some_iff hf
  case legacy =>
    have h7 : s.lgIdx = 7 ↔ ¬ s.lgIdx.val < Config.legacyContentLen :=
      ⟨fun h => by simp [h], lgIdx_eq_trailer⟩
    cases c <;> simp [errorCondition, errorCause, hf, h7]

/-! ### What it leaves -/

/-- A v2 condition returns the receiver to the header scan and does nothing else. -/
theorem exec_rxByte_of_v2_error (h : errorCause b s c) (hc : c ≠ .legacyCrcMismatch) :
    exec (.rxByte b) s = .next { s with rxState := .awaitHeaderByte0 } := by
  cases c with
  | v2BadHeader =>
    obtain ⟨hf, ⟨hs, hb⟩ | ⟨hs, hb₁, hb₀⟩⟩ := h
    · rw [exec_rxByte_awaitHeaderByte0 hf hs, if_neg hb]
    · rw [exec_rxByte_awaitHeaderByte1 hf hs, if_neg hb₁, if_neg hb₀]
  | v2BadLength =>
    obtain ⟨hf, hs, hlen⟩ := h
    exact exec_rxByte_length_rejected hf hs (by rwa [le16_toNat])
  | v2CrcMismatch =>
    obtain ⟨hf, hs, hl, hcrc⟩ := h
    exact (v2CrcDecidesDelivery.1 b s hf hs hl).2 hcrc
  | legacyCrcMismatch => exact absurd rfl hc

/-- A legacy mismatch sets the latch and returns to window position 0, and does nothing else. -/
theorem exec_rxByte_of_legacy_error (h : errorCause b s .legacyCrcMismatch) :
    exec (.rxByte b) s = .next { s with crcErrLatch := true, lgIdx := 0 } := by
  obtain ⟨hf, h7, hb⟩ := h
  exact exec_rxByte_trailer_mismatch hf h7 hb

/-- Settles O33: `errorCondition_eq_some_iff` at each condition, and what the RX_BYTE that meets it leaves. -/
theorem errorConditionsAndTheirEffects : Obligations.ErrorConditionsAndTheirEffects := fun _ _ =>
  ⟨errorCondition_eq_some_iff, errorCondition_eq_some_iff, errorCondition_eq_some_iff, errorCondition_eq_some_iff,
    fun _ h => exec_rxByte_of_v2_error (errorCondition_eq_some_iff.1 h),
    fun h => exec_rxByte_of_legacy_error (errorCondition_eq_some_iff.1 h), rfl, rfl, rfl, rfl⟩

end Sys2Proof.Machine
end

section
/-! SUPPORT. The accumulators apart from everything else (10_state.md R17, 70_reset_and_hazards.md R122): the operations on
the wire neither read nor write them. -/

namespace Sys2Proof.Machine

variable {s t : State}

/-! ### Which effect a TX_SEND has -/

/-- Which of its three effects TX_SEND_V2 has, the configuration and the payload alone decide. -/
theorem exec_txSendV2_uniform (p : List Byte) (c : Config) :
    (∀ s : State, s.cfg = c → exec (.txSendV2 p) s = .next (refuse .wrongFormat s)) ∨
    (∀ s : State, s.cfg = c → exec (.txSendV2 p) s = .next (refuse .txLength s)) ∨
    (∀ s : State, s.cfg = c → exec (.txSendV2 p) s = .next (emit (.txBytes (v2Frame p)) s)) := by
  by_cases hf : c.format = .v2
  · by_cases hl : p.length < Config.minPayload ∨ p.length > Config.maxPayload
    · exact .inr (.inl fun s hc => by subst hc; exact (if_neg (not_not.2 hf)).trans (if_pos hl))
    · exact .inr (.inr fun s hc => by subst hc; exact (if_neg (not_not.2 hf)).trans (if_neg hl))
  · exact .inl fun s hc => by subst hc; exact if_pos hf

/-- Which of its three effects TX_SEND_LEGACY has, the configuration and the body alone decide. -/
theorem exec_txSendLegacy_uniform (body : List Byte) (c : Config) :
    (∀ s : State, s.cfg = c → exec (.txSendLegacy body) s = .next (refuse .wrongFormat s)) ∨
    (∀ s : State, s.cfg = c → exec (.txSendLegacy body) s = .next (refuse .txLength s)) ∨
    (∀ s : State, s.cfg = c → exec (.txSendLegacy body) s =
      .next { s with
        events := s.events ++ [.txBytes (legacyResponseFrame body)]
        crcErrLatch := !c.clearLatchOnReport && s.crcErrLatch }) := by
  by_cases hf : c.format = .legacy
  · by_cases hl : body.length ≠ Config.legacyRspLen - 1
    · exact .inr (.inl fun s hc => by subst hc; exact (if_neg (not_not.2 hf)).trans (if_pos hl))
    · refine .inr (.inr fun s hc => ?_)
      subst hc
      refine ((if_neg (not_not.2 hf)).trans (if_neg hl)).trans ?_
      rw [reportLatch_eq]
      rfl
  · exact .inl fun s hc => by subst hc; exact if_pos hf

/-! ### The operations on the wire, whatever the accumulators hold -/

/-- A v2 receiver that answers to a payload byte has room for it. -/
theorem rxCount_lt_of_exec {b : Byte} (hf : s.cfg.format = .v2) (hs : s.rxState = .awaitPayload)
    (h : exec (.rxByte b) s = .next t) : s.rxCount.toNat < 506 := by
  by_contra hc
  have hfault := (rxByteV2_fault_iff b s).2 (.inl ⟨hs, Nat.le_of_not_lt hc⟩)
  rw [exec_rxByte_of_v2 hf, hfault] at h
  cases h

/-- A v2 receiver that answers to a frame's last byte has the whole payload in its buffer. -/
theorem rxLen_le_of_exec {b : Byte} (hf : s.cfg.format = .v2) (hs : s.rxState = .awaitCrcHigh)
    (h : exec (.rxByte b) s = .next t) : s.rxLen.toNat ≤ 506 := by
  by_contra hl
  have hfault := (rxByteV2_fault_iff b s).2 (.inr ⟨hs, Nat.lt_of_not_le hl⟩)
  rw [exec_rxByte_of_v2 hf, hfault] at h
  cases h

/-- `s` with other values in the accumulators (10_state.md R17). -/
def State.withAccumulators (x : Byte) (y : U16) (s : State) : State := { s with crc8Acc := x, crc16Acc := y }

variable (x : Byte) (y : U16)

/-- In each receive state the next state is an equation that names no accumulator. -/
theorem exec_rxByte_v2_anyAccumulators {b : Byte} (hf : s.cfg.format = .v2) (h : exec (.rxByte b) s = .next t) :
    exec (.rxByte b) (s.withAccumulators x y) = .next (t.withAccumulators x y) := by
  cases hs : s.rxState
  case awaitHeaderByte0 =>
    cases (exec_rxByte_awaitHeaderByte0 hf hs b).symm.trans h
    exact exec_rxByte_awaitHeaderByte0 (s := s.withAccumulators x y) hf hs b
  case awaitHeaderByte1 =>
    cases (exec_rxByte_awaitHeaderByte1 hf hs b).symm.trans h
    exact exec_rxByte_awaitHeaderByte1 (s := s.withAccumulators x y) hf hs b
  case awaitLengthLow =>
    cases (exec_rxByte_awaitLengthLow hf hs b).symm.trans h
    exact exec_rxByte_awaitLengthLow (s := s.withAccumulators x y) hf hs b
  case awaitLengthHigh =>
    by_cases hlen : (le16 s.rxLenLo b).toNat = 0 ∨ 506 < (le16 s.rxLenLo b).toNat
    · cases (exec_rxByte_length_rejected hf hs hlen).symm.trans h
      exact exec_rxByte_length_rejected (s := s.withAccumulators x y) hf hs hlen
    · have h₁ : 1 ≤ (le16 s.rxLenLo b).toNat := by omega
      have h₂ : (le16 s.rxLenLo b).toNat ≤ 506 := by omega
      cases (exec_rxByte_length_accepted hf hs h₁ h₂).symm.trans h
      exact exec_rxByte_length_accepted (s := s.withAccumulators x y) hf hs h₁ h₂
  case awaitPayload =>
    have hc := rxCount_lt_of_exec hf hs h
    cases (exec_rxByte_awaitPayload hf hs hc b).symm.trans h
    exact exec_rxByte_awaitPayload (s := s.withAccumulators x y) hf hs hc b
  case awaitCrcLow =>
    cases (exec_rxByte_awaitCrcLow hf hs b).symm.trans h
    exact exec_rxByte_awaitCrcLow (s := s.withAccumulators x y) hf hs b
  case awaitCrcHigh =>
    have hl := rxLen_le_of_exec hf hs h
    cases (exec_rxByte_awaitCrcHigh hf hs hl b).symm.trans h
    exact exec_rxByte_awaitCrcHigh (s := s.withAccumulators x y) hf hs hl b

theorem exec_rxByte_legacy_anyAccumulators {b : Byte} (hf : s.cfg.format = .legacy)
    (h : exec (.rxByte b) s = .next t) :
    exec (.rxByte b) (s.withAccumulators x y) = .next (t.withAccumulators x y) := by
  by_cases hi : s.lgIdx.val < 7
  · cases (exec_rxByte_window hf hi b).symm.trans h
    exact exec_rxByte_window (s := s.withAccumulators x y) hf hi b
  · have h7 := lgIdx_eq_trailer hi
    by_cases hb : b = crc8 s.lgWin.toList
    · cases (exec_rxByte_trailer_match hf h7 hb).symm.trans h
      exact exec_rxByte_trailer_match (s := s.withAccumulators x y) hf h7 hb
    · cases (exec_rxByte_trailer_mismatch hf h7 hb).symm.trans h
      exact exec_rxByte_trailer_mismatch (s := s.withAccumulators x y) hf h7 hb

/-- RX_BYTE and the TX_SENDs answer the same next state, but for the accumulators, whatever the accumulators hold. -/
theorem exec_wire_anyAccumulators {i : Instr}
    (hi : (∃ b, i = .rxByte b) ∨ (∃ p, i = .txSendV2 p) ∨ (∃ p, i = .txSendLegacy p)) (h : exec i s = .next t) :
    exec i (s.withAccumulators x y) = .next (t.withAccumulators x y) := by
  obtain ⟨b, rfl⟩ | ⟨p, rfl⟩ | ⟨p, rfl⟩ := hi
  · cases hf : s.cfg.format
    case v2 => exact exec_rxByte_v2_anyAccumulators x y hf h
    case legacy => exact exec_rxByte_legacy_anyAccumulators x y hf h
  · obtain e | e | e := exec_txSendV2_uniform p s.cfg <;>
    · cases (e s rfl).symm.trans h
      exact e (s.withAccumulators x y) rfl
  · obtain e | e | e := exec_txSendLegacy_uniform p s.cfg <;>
    · cases (e s rfl).symm.trans h
      exact e (s.withAccumulators x y) rfl

/-! ### Who writes them -/

/-- An operation on the wire leaves both accumulators: told that they hold what they hold, it ends with that in them. -/
theorem exec_wire_accumulators {i : Instr}
    (hi : (∃ b, i = .rxByte b) ∨ (∃ p, i = .txSendV2 p) ∨ (∃ p, i = .txSendLegacy p)) (h : exec i s = .next t) :
    t.crc8Acc = s.crc8Acc ∧ t.crc16Acc = s.crc16Acc := by
  have hsame := h.symm.trans (exec_wire_anyAccumulators s.crc8Acc s.crc16Acc hi h)
  injection hsame with ht
  exact ⟨(congrArg State.crc8Acc ht :), (congrArg State.crc16Acc ht :)⟩

/-- An operation that changes an accumulator is one of its own two or RESET. -/
theorem exec_accumulator_writers {i : Instr} (h : exec i s = .next t) :
    (t.crc8Acc ≠ s.crc8Acc → i = .crc8Init ∨ (∃ b, i = .crc8Byte b) ∨ i = .reset) ∧
    (t.crc16Acc ≠ s.crc16Acc → i = .crc16Init ∨ (∃ b, i = .crc16Byte b) ∨ i = .reset) := by
  have hkept (hi : (∃ b, i = .rxByte b) ∨ (∃ p, i = .txSendV2 p) ∨ (∃ p, i = .txSendLegacy p)) :=
    exec_wire_accumulators hi h
  cases i with
  | rxByte b => simp [hkept (.inl ⟨b, rfl⟩)]
  | txSendV2 p => simp [hkept (.inr (.inl ⟨p, rfl⟩))]
  | txSendLegacy p => simp [hkept (.inr (.inr ⟨p, rfl⟩))]
  | crc8Init | crc8Byte | crc16Init | crc16Byte | clearCrcErr => cases h; simp
  | reset => simp

/-- Settles O20: the writers and the independence of the wire; the second CRC8_INIT overwrites what the first computation
left. -/
theorem accumulatorsAreSeparate : Obligations.AccumulatorsAreSeparate :=
  ⟨fun _ _ _ h => exec_accumulator_writers h, fun _ _ _ x y hi h => exec_wire_anyAccumulators x y hi h,
    fun a b s => (execAll_cons (exec_crc8Init s)).trans <| (execAll_cons (exec_crc8Byte a _)).trans <|
      (execAll_cons (exec_crc8Init _)).trans (execAll_crc8Byte [b] _)⟩

end Sys2Proof.Machine
end

section
/-! SUPPORT. The reset state (70_reset_and_hazards.md R116), and why the registers it leaves unspecified are never observed
(R118): two states that differ only in registers not yet written run alike. -/

namespace Sys2Proof.Machine

/-- Settles O49: every listed value is the one `State.resetFor` writes. -/
theorem resetStateValues : Obligations.ResetStateValues :=
  fun _ => ⟨rfl, rfl, rfl, rfl, rfl, rfl, rfl, rfl⟩

variable {s : State} {u : Unspecified}

/-! ### States that run alike -/

/-- `s`, and `s` with the values `u` in the unspecified registers, run alike: they agree on every register already
written, and the v2 reassembler fits its counters (10_state.md R24), which keeps it from reading any other. -/
structure RunsAlike (s : State) (u : Unspecified) : Prop where
  rx : s.cfg.format = .v2 → RxInv s
  agree : AgreeOnWritten s (s.withUnspecified u)

/-- In the v2 format the window does not matter. -/
theorem RunsAlike.of_v2 (hf : s.cfg.format = .v2) (hrx : RxInv s)
    (hlenLo : s.rxState = .awaitLengthHigh → u.rxLenLo = s.rxLenLo)
    (hframe : s.rxState = .awaitPayload ∨ s.rxState = .awaitCrcLow ∨ s.rxState = .awaitCrcHigh →
      u.rxLen = s.rxLen ∧ u.rxCount = s.rxCount ∧ ∀ i : Nat, i < s.rxCount.toNat → u.rxBuf[i]? = s.rxBuf[i]?)
    (hcrcLo : s.rxState = .awaitCrcHigh → u.rxCrcLo = s.rxCrcLo) : RunsAlike s u :=
  ⟨fun _ => hrx, rfl, fun _ => hlenLo, fun _ => hframe, fun _ => hcrcLo, fun h => by simp [hf] at h⟩

/-- Where the v2 receiver scans for a header or waits for a length it uses no register but its state. -/
theorem RunsAlike.of_v2_scan (hf : s.cfg.format = .v2)
    (hs : s.rxState = .awaitHeaderByte0 ∨ s.rxState = .awaitHeaderByte1 ∨ s.rxState = .awaitLengthLow) :
    RunsAlike s u := by
  obtain hs | hs | hs := hs <;> exact .of_v2 hf (by simp [RxInv, hs]) (by simp [hs]) (by simp [hs]) (by simp [hs])

/-- In the legacy format only the window below the index matters. -/
theorem RunsAlike.of_legacy (hf : s.cfg.format = .legacy)
    (hwin : ∀ i : Nat, i < s.lgIdx.val → u.lgWin[i]? = s.lgWin[i]?) : RunsAlike s u := by
  have hv (h : s.cfg.format = .v2) : False := by simp [hf] at h
  exact ⟨fun h => (hv h).elim, rfl, fun h => (hv h).elim, fun h => (hv h).elim, fun h => (hv h).elim, fun _ => hwin⟩

/-- Nothing outside the receiver's registers and the format matters. -/
theorem RunsAlike.update (h : RunsAlike s u) (latch : Bool) (x : Byte) (y : U16) (mark : Bool)
    (reason : Option RefuseReason) (es : List Event) (os : List Operation) :
    RunsAlike { s with
      crcErrLatch := latch, crc8Acc := x, crc16Acc := y, refused := mark, lastRefusal := reason, events := es
      pending := os } u :=
  ⟨h.rx, rfl, h.agree.lenLo, h.agree.frame, h.agree.crcLo, h.agree.window⟩

/-- Two outcomes that go on, to states that run alike. -/
def GoOnAlike (o₁ o₂ : Host.Outcome State Fault Refusal) : Prop :=
  ∃ (s : State) (u : Unspecified), o₁ = .next s ∧ o₂ = .next (s.withUnspecified u) ∧ RunsAlike s u

/-! ### One received byte -/

theorem take_toList_congr {n k : Nat} {v w : Vector Byte n} (h : ∀ i : Nat, i < k → v[i]? = w[i]?) :
    v.toList.take k = w.toList.take k := by
  refine List.ext_getElem? fun i => ?_
  rw [List.getElem?_take, List.getElem?_take]
  split
  · simpa using h i ‹_›
  · rfl

/-- Both states accept or both reject the length: they hold the same low byte. -/
theorem exec_rxByte_awaitLengthHigh_goOnAlike (b : Byte) (hf : s.cfg.format = .v2) (hs : s.rxState = .awaitLengthHigh)
    (h : RunsAlike s u) : GoOnAlike (exec (.rxByte b) s) (exec (.rxByte b) (s.withUnspecified u)) := by
  obtain ⟨lenLo, len, count, buf, crcLo, win⟩ := u
  obtain rfl : lenLo = s.rxLenLo := h.agree.lenLo hf hs
  by_cases hr : (le16 s.rxLenLo b).toNat = 0 ∨ 506 < (le16 s.rxLenLo b).toNat
  · exact ⟨_, ⟨_, len, count, buf, crcLo, win⟩, exec_rxByte_length_rejected hf hs hr,
      exec_rxByte_length_rejected (s := s.withUnspecified _) hf hs hr, .of_v2_scan hf (.inl rfl)⟩
  · have h₁ : 1 ≤ (le16 s.rxLenLo b).toNat := by omega
    have h₂ : (le16 s.rxLenLo b).toNat ≤ 506 := by omega
    exact ⟨_, ⟨_, _, _, buf, crcLo, win⟩, exec_rxByte_length_accepted hf hs h₁ h₂,
      exec_rxByte_length_accepted (s := s.withUnspecified _) hf hs h₁ h₂,
      .of_v2 hf ⟨fun _ => ⟨h₁, h₂, h₁⟩, nofun⟩ nofun (fun _ => ⟨rfl, rfl, nofun⟩) nofun⟩

/-- Both states store the byte at the same index and count it, so one more byte of the buffers agrees. -/
theorem exec_rxByte_awaitPayload_goOnAlike (b : Byte) (hf : s.cfg.format = .v2) (hs : s.rxState = .awaitPayload)
    (h : RunsAlike s u) : GoOnAlike (exec (.rxByte b) s) (exec (.rxByte b) (s.withUnspecified u)) := by
  obtain ⟨lenLo, len, count, buf, crcLo, win⟩ := u
  obtain ⟨h₁, h₂, hc⟩ := (h.rx hf).1 hs
  obtain ⟨hlen, hcount, hbuf⟩ := h.agree.frame hf (.inl hs)
  obtain rfl : len = s.rxLen := hlen
  obtain rfl : count = s.rxCount := hcount
  have hlt : s.rxCount.toNat < 506 := hc.trans_le h₂
  have hnext : (BitVec.ofNat 16 (s.rxCount.toNat + 1)).toNat = s.rxCount.toNat + 1 := by
    rw [BitVec.toNat_ofNat]
    omega
  refine ⟨_, ⟨lenLo, s.rxLen, .ofNat 16 (s.rxCount.toNat + 1), buf.setIfInBounds s.rxCount.toNat b, crcLo, win⟩,
    exec_rxByte_awaitPayload hf hs hlt b, exec_rxByte_awaitPayload (s := s.withUnspecified _) hf hs (by exact hlt) b,
    .of_v2 hf ?_ ?_ ?_ ?_⟩
  · by_cases hlast : s.rxCount.toNat + 1 = s.rxLen.toNat
    · simp [RxInv, hlast, h₁, h₂]
    · have hmore : (BitVec.ofNat 16 (s.rxCount.toNat + 1)).toNat < s.rxLen.toNat := by omega
      simpa [RxInv, hlast] using ⟨h₁, h₂, hmore⟩
  · split_ifs <;> nofun
  · refine fun _ => ⟨rfl, rfl, fun i hi => ?_⟩
    have hi : i < s.rxCount.toNat + 1 := hnext ▸ hi
    show (buf.setIfInBounds s.rxCount.toNat b)[i]? = (s.rxBuf.setIfInBounds s.rxCount.toNat b)[i]?
    rw [Vector.getElem?_setIfInBounds, Vector.getElem?_setIfInBounds]
    split
    · rfl
    · exact hbuf i (by omega)
  · split_ifs <;> nofun

/-- Both states deliver the same payload or both drop it: the whole payload has been written. -/
theorem exec_rxByte_awaitCrcHigh_goOnAlike (b : Byte) (hf : s.cfg.format = .v2) (hs : s.rxState = .awaitCrcHigh)
    (h : RunsAlike s u) : GoOnAlike (exec (.rxByte b) s) (exec (.rxByte b) (s.withUnspecified u)) := by
  obtain ⟨lenLo, len, count, buf, crcLo, win⟩ := u
  obtain ⟨-, hl, hcount⟩ := (h.rx hf).2 (.inr hs)
  obtain ⟨hlen, -, hbuf⟩ := h.agree.frame hf (.inr (.inr hs))
  obtain rfl : len = s.rxLen := hlen
  obtain rfl : crcLo = s.rxCrcLo := h.agree.crcLo hf hs
  have hpayload : buf.toList.take s.rxLen.toNat = s.rxBuf.toList.take s.rxLen.toNat :=
    take_toList_congr (hcount ▸ hbuf)
  refine ⟨_, ⟨lenLo, s.rxLen, count, buf, s.rxCrcLo, win⟩, exec_rxByte_awaitCrcHigh hf hs hl b, ?_,
    .of_v2_scan hf (.inl rfl)⟩
  rw [← hpayload]
  exact exec_rxByte_awaitCrcHigh (s := s.withUnspecified _) hf hs (by exact hl) b

theorem exec_rxByte_v2_goOnAlike (b : Byte) (hf : s.cfg.format = .v2) (h : RunsAlike s u) :
    GoOnAlike (exec (.rxByte b) s) (exec (.rxByte b) (s.withUnspecified u)) := by
  cases hs : s.rxState
  case awaitHeaderByte0 =>
    refine ⟨_, u, exec_rxByte_awaitHeaderByte0 hf hs b,
      exec_rxByte_awaitHeaderByte0 (s := s.withUnspecified u) hf hs b, .of_v2_scan hf ?_⟩
    split_ifs <;> simp
  case awaitHeaderByte1 =>
    refine ⟨_, u, exec_rxByte_awaitHeaderByte1 hf hs b,
      exec_rxByte_awaitHeaderByte1 (s := s.withUnspecified u) hf hs b, .of_v2_scan hf ?_⟩
    split_ifs <;> simp
  case awaitLengthLow =>
    exact ⟨_, { u with rxLenLo := b }, exec_rxByte_awaitLengthLow hf hs b,
      exec_rxByte_awaitLengthLow (s := s.withUnspecified u) hf hs b,
      .of_v2 hf ⟨nofun, nofun⟩ (fun _ => rfl) nofun nofun⟩
  case awaitLengthHigh => exact exec_rxByte_awaitLengthHigh_goOnAlike b hf hs h
  case awaitPayload => exact exec_rxByte_awaitPayload_goOnAlike b hf hs h
  case awaitCrcLow =>
    exact ⟨_, { u with rxCrcLo := b }, exec_rxByte_awaitCrcLow hf hs b,
      exec_rxByte_awaitCrcLow (s := s.withUnspecified u) hf hs b,
      .of_v2 hf ⟨nofun, fun _ => (h.rx hf).2 (.inl hs)⟩ nofun (fun _ => h.agree.frame hf (.inr (.inl hs)))
        (fun _ => rfl)⟩
  case awaitCrcHigh => exact exec_rxByte_awaitCrcHigh_goOnAlike b hf hs h

/-- Both windows get the byte at the same index, and at the trailer the whole windows agree. -/
theorem exec_rxByte_legacy_goOnAlike (b : Byte) (hf : s.cfg.format = .legacy) (h : RunsAlike s u) :
    GoOnAlike (exec (.rxByte b) s) (exec (.rxByte b) (s.withUnspecified u)) := by
  have hwin := h.agree.window hf
  by_cases hi : s.lgIdx.val < 7
  · refine ⟨_, { u with lgWin := winWrite u.lgWin s.lgIdx b }, exec_rxByte_window hf hi b,
      exec_rxByte_window (s := s.withUnspecified u) hf hi b, .of_legacy hf fun i hlt => ?_⟩
    have hlt : i < s.lgIdx.val + 1 := (lgIdx_succ_val hi).symm ▸ hlt
    show (winWrite u.lgWin s.lgIdx b)[i]? = (winWrite s.lgWin s.lgIdx b)[i]?
    rw [winWrite_getElem? _ _ b hi, winWrite_getElem? _ _ b hi]
    split
    · rfl
    · exact hwin i (by omega)
  · have h7 := lgIdx_eq_trailer hi
    obtain ⟨lenLo, len, count, buf, crcLo, win⟩ := u
    obtain rfl : win = s.lgWin := Vector.ext fun i hlt =>
      Vector.getElem_eq_iff.2 ((hwin i (h7 ▸ hlt)).trans (Vector.getElem?_eq_getElem hlt))
    by_cases hb : b = crc8 s.lgWin.toList
    · exact ⟨_, ⟨lenLo, len, count, buf, crcLo, _⟩, exec_rxByte_trailer_match hf h7 hb,
        exec_rxByte_trailer_match (s := s.withUnspecified _) hf h7 hb, .of_legacy hf nofun⟩
    · exact ⟨_, ⟨lenLo, len, count, buf, crcLo, _⟩, exec_rxByte_trailer_mismatch hf h7 hb,
        exec_rxByte_trailer_mismatch (s := s.withUnspecified _) hf h7 hb, .of_legacy hf nofun⟩

/-! ### Any operation, any step -/

/-- Only RX_BYTE and RESET touch the receiver; the others change what `RunsAlike.update` allows. -/
theorem exec_goOnAlike (i : Instr) (h : RunsAlike s u) :
    GoOnAlike (exec i s) (exec i (s.withUnspecified u)) := by
  cases i with
  | rxByte b =>
    cases hf : s.cfg.format
    case v2 => exact exec_rxByte_v2_goOnAlike b hf h
    case legacy => exact exec_rxByte_legacy_goOnAlike b hf h
  | txSendV2 p =>
    obtain e | e | e := exec_txSendV2_uniform p s.cfg <;>
    exact ⟨_, u, e s rfl, e (s.withUnspecified u) rfl, h.update ..⟩
  | txSendLegacy body =>
    obtain e | e | e := exec_txSendLegacy_uniform body s.cfg <;>
    exact ⟨_, u, e s rfl, e (s.withUnspecified u) rfl, h.update ..⟩
  | crc8Init | crc8Byte | crc16Init | crc16Byte | clearCrcErr => exact ⟨_, u, rfl, rfl, h.update ..⟩
  | reset =>
    cases hf : s.cfg.format
    case v2 =>
      obtain ⟨hreset, -⟩ := resetWritesExactlyTheResetState
      exact ⟨_, u, hreset s hf, hreset (s.withUnspecified u) hf, .of_v2_scan hf (.inl rfl)⟩
    case legacy =>
      obtain ⟨-, hreset, -⟩ := resetWritesExactlyTheResetState
      exact ⟨_, u, hreset s hf, hreset (s.withUnspecified u) hf, .of_legacy hf nofun⟩

theorem step_of_pending_nil (hp : s.pending = []) : step s = .next s := by
  simp [step, takeOperation_nil hp]

theorem step_of_decode_ok {o : Operation} {rest : List Operation} {i : Instr} (hp : s.pending = o :: rest)
    (hd : decode s.cfg.format o = .ok i) : step s = exec i { s with pending := rest } := by
  simp [step, takeOperation_cons hp, hd]

/-- Both states wait, refuse the same operation, or run the same operation. -/
theorem step_goOnAlike (h : RunsAlike s u) : GoOnAlike (step s) (step (s.withUnspecified u)) := by
  cases hp : s.pending with
  | nil => exact ⟨s, u, step_of_pending_nil hp, step_of_pending_nil (s := s.withUnspecified u) hp, h⟩
  | cons o rest =>
    cases hd : decode s.cfg.format o with
    | error r =>
      exact ⟨_, u, step_of_decode_error hp hd, step_of_decode_error (s := s.withUnspecified u) hp hd, h.update ..⟩
    | ok i =>
      rw [step_of_decode_ok hp hd, step_of_decode_ok (s := s.withUnspecified u) hp hd]
      exact exec_goOnAlike (s := { s with pending := rest }) i (h.update ..)

/-! ### Runs -/

theorem run_succ_of_step {t : State} (h : step s = .next t) (k : Nat) :
    Host.Core.run core (k + 1) s = Host.Core.run core k t := by
  have hstep : core.step s = .next t := h
  simp [Host.Core.run, hstep]

theorem run_goOnAlike (k : Nat) (h : RunsAlike s u) :
    GoOnAlike (Host.Core.run core k s) (Host.Core.run core k (s.withUnspecified u)) := by
  induction k generalizing s u with
  | zero => exact ⟨s, u, rfl, rfl, h⟩
  | succ k ih =>
    obtain ⟨t, v, hs, hu, ht⟩ := step_goOnAlike h
    rw [run_succ_of_step hs, run_succ_of_step hu]
    exact ih ht

theorem resetFor_runsAlike (c : Config) (u v : Unspecified) : RunsAlike ((State.resetFor c).withUnspecified u) v := by
  cases hf : c.format
  case v2 => exact .of_v2_scan hf (.inl rfl)
  case legacy => exact .of_legacy hf nofun

/-- Settles O57: the two runs start from states that run alike, so both go on, and the unspecified registers, in which
alone they can end differently, are no part of the observation. -/
theorem unspecifiedRegistersAreUnobservable : Obligations.UnspecifiedRegistersAreUnobservable := by
  intro c u v os
  have hstart : RunsAlike (((State.resetFor c).withUnspecified u).issue os) v := (resetFor_runsAlike c u v).update ..
  obtain ⟨s', v', hs, ht, -⟩ := run_goOnAlike os.length hstart
  have hu : runOps os ((State.resetFor c).withUnspecified u) = .next s' := hs
  have hv : runOps os ((State.resetFor c).withUnspecified v) = .next (s'.withUnspecified v') := ht
  rw [hu, hv]
  exact ⟨rfl, rfl⟩

end Sys2Proof.Machine
end

section
/-! SUPPORT. Decoding and encoding as inverses of each other (30_encoding.md R50, R51, R57). -/

namespace Sys2Proof

/-! ### A row and its operands -/

/-- An operation is its row with its own operands. -/
theorem build_opcode (i : Instr) : i.opcode.build i.imm (i.data.getD []) = i := by cases i <;> rfl

/-- The byte an operation carries is the one its row was given, where the row takes one or it is zero. -/
theorem imm_build {k : Opcode} {imm : Byte} (h : k.takesByte = true ∨ imm = 0) (data : List Byte) :
    (k.build imm data).imm = imm := by
  cases k with
  | rxByte | crc8Byte | crc16Byte => rfl
  | txSendV2 | txSendLegacy | crc8Init | crc16Init | clearCrcErr | reset => exact (h.resolve_left nofun).symm

/-- The operand an operation carries is the one its row was given, where one stands exactly if the row takes it. -/
theorem data_build {k : Opcode} {d : Option (List Byte)} (h : d.isSome = k.takesData) (imm : Byte) :
    (k.build imm (d.getD [])).data = d := by
  cases d with
  | none =>
    cases k with
    | txSendV2 | txSendLegacy => cases h
    | rxByte | crc8Init | crc8Byte | crc16Init | crc16Byte | clearCrcErr | reset => rfl
  | some data =>
    cases k with
    | txSendV2 | txSendLegacy => rfl
    | rxByte | crc8Init | crc8Byte | crc16Init | crc16Byte | clearCrcErr | reset => cases h

/-! ### The two directions -/

/-- Every operation's encoding is a word of its row. -/
theorem encode_mapRow : (i : Instr) → Laws.MapRow.Statement i
  | .rxByte b => Laws.MapRow.rxByte b
  | .txSendV2 data => Laws.MapRow.txSendV2 data
  | .txSendLegacy data => Laws.MapRow.txSendLegacy data
  | .crc8Init => Laws.MapRow.crc8Init
  | .crc8Byte b => Laws.MapRow.crc8Byte b
  | .crc16Init => Laws.MapRow.crc16Init
  | .crc16Byte b => Laws.MapRow.crc16Byte b
  | .clearCrcErr => Laws.MapRow.clearCrcErr
  | .reset => Laws.MapRow.reset

/-- Settles O2: the word is of the operation's row, the row's checks are the well-formedness, and the operands read
back. -/
theorem decodeOfEncode : Obligations.DecodeOfEncode := by
  intro f i hw
  obtain ⟨hop, hz, himm, hdata⟩ := encode_mapRow i
  obtain ⟨hformat, hlength⟩ := (legal_iff_wellFormed f i).2 hw
  refine (decode_ok_iff f (encode i) i).2 ⟨hz, i.opcode, ?_, ?_, hdata, hformat, hlength, ?_⟩
  · rw [hop, ofCode_code]
  · cases hb : i.opcode.takesByte with
    | true => exact .inl rfl
    | false => exact .inr (himm hb)
  · rw [encode, immField_packWord, build_opcode]

/-- Settles O3: the checks that passed are what makes the row's operation carry the word's own fields. -/
theorem encodeOfDecode : Obligations.EncodeOfDecode := by
  intro f o i h
  refine ⟨?_, wellFormed_of_decode h⟩
  obtain ⟨hz, k, hk, himm, hdata, -, -, rfl⟩ := (decode_ok_iff f o i).1 h
  rw [encode, opcode_build, imm_build himm, data_build hdata, code_of_ofCode hk, ← hz, packWord_fields]

/-- Settles O1: the decoder evaluated on each word. -/
theorem writtenWordsDecode : Obligations.WrittenWordsDecode := by
  unfold Obligations.WrittenWordsDecode
  decide

end Sys2Proof
end

section
/-! SUPPORT. Steps as operations run in order (20_memory.md R42): an operation neither reads nor writes the queue. -/

namespace Sys2Proof.Machine

/-- Settles O5: the two ways a step goes without a refusal. -/
theorem stepRunsTheDecodedOperation : Obligations.StepRunsTheDecodedOperation :=
  ⟨fun _ _ _ _ => step_of_decode_ok, fun _ => step_of_pending_nil⟩

/-- Settles O6: the step is `refuse` on the state with the operation taken. -/
theorem refusedOperationOnlySetsTheMark : Obligations.RefusedOperationOnlySetsTheMark :=
  fun _ _ _ _ => step_of_decode_error

/-! ### The queue apart from everything else -/

/-- `s` with other operations issued (log 4). -/
def State.withPending (os : List Operation) (s : State) : State := { s with pending := os }

/-- An outcome with its next state replaced; a stop stays. -/
def onNext (f : State → State) : Host.Outcome State Fault Refusal → Host.Outcome State Fault Refusal
  | .next s => .next (f s)
  | .fault r => .fault r
  | .refused r => .refused r

variable (os : List Operation) (b : Byte) (s : State)

@[simp] theorem withPending_cfg : (s.withPending os).cfg = s.cfg := rfl
@[simp] theorem withPending_rxState : (s.withPending os).rxState = s.rxState := rfl
@[simp] theorem withPending_rxLenLo : (s.withPending os).rxLenLo = s.rxLenLo := rfl
@[simp] theorem withPending_rxLen : (s.withPending os).rxLen = s.rxLen := rfl
@[simp] theorem withPending_rxCount : (s.withPending os).rxCount = s.rxCount := rfl
@[simp] theorem withPending_rxCrcLo : (s.withPending os).rxCrcLo = s.rxCrcLo := rfl
@[simp] theorem withPending_rxBuf : (s.withPending os).rxBuf = s.rxBuf := rfl

/-- On the v2 wire the rule of each receive state reads and writes the receiver and the output only. -/
theorem rxByteV2_withPending : rxByteV2 b (s.withPending os) = onNext (State.withPending os) (rxByteV2 b s) := by
  unfold rxByteV2
  rw [withPending_rxState]
  cases s.rxState with
  | awaitHeaderByte0 =>
    simp only [rxHeader0]
    split_ifs <;> rfl
  | awaitHeaderByte1 =>
    simp only [rxHeader1]
    split_ifs <;> rfl
  | awaitLengthHigh =>
    cases h : lengthAccepted (le16 s.rxLenLo b) <;> simp only [rxLengthHigh, withPending_rxLenLo, h] <;> rfl
  | awaitPayload =>
    simp only [rxPayload, withPending_rxBuf, withPending_rxCount]
    cases bufWrite s.rxBuf s.rxCount b <;> rfl
  | awaitCrcHigh =>
    simp only [rxCrcHigh, withPending_rxBuf, withPending_rxLen]
    cases bufSlice s.rxBuf s.rxLen with
    | none => rfl
    | some payload =>
      by_cases h : le16 s.rxCrcLo b = frameCrc s.rxLen payload <;> simp only [withPending_rxCrcLo, h] <;> rfl
  | awaitLengthLow | awaitCrcLow => rfl

/-- On the legacy wire each row reads and writes the window, the latch and the output only. -/
theorem exec_rxByte_legacy_withPending (hf : s.cfg.format = .legacy) :
    exec (.rxByte b) (s.withPending os) = onNext (State.withPending os) (exec (.rxByte b) s) := by
  by_cases hi : s.lgIdx.val < 7
  · rw [exec_rxByte_window hf hi, exec_rxByte_window (s := s.withPending os) hf hi]
    rfl
  · have h7 := lgIdx_eq_trailer hi
    by_cases hb : b = crc8 s.lgWin.toList
    · rw [exec_rxByte_trailer_match hf h7 hb, exec_rxByte_trailer_match (s := s.withPending os) hf h7 hb]
      rfl
    · rw [exec_rxByte_trailer_mismatch hf h7 hb, exec_rxByte_trailer_mismatch (s := s.withPending os) hf h7 hb]
      rfl

theorem resetReceiver_withPending : resetReceiver (s.withPending os) = (resetReceiver s).withPending os := by
  unfold resetReceiver
  rw [withPending_cfg]
  cases s.cfg.format <;> rfl

/-- An operation does the same whatever waits behind it. -/
theorem exec_withPending (i : Instr) : exec i (s.withPending os) = onNext (State.withPending os) (exec i s) := by
  cases i with
  | rxByte b =>
    cases hf : s.cfg.format
    case v2 => rw [exec_rxByte_of_v2 hf, exec_rxByte_of_v2 (s := s.withPending os) hf, rxByteV2_withPending]
    case legacy => exact exec_rxByte_legacy_withPending os b s hf
  | txSendV2 p =>
    obtain e | e | e := exec_txSendV2_uniform p s.cfg <;>
    · rw [e s rfl, e (s.withPending os) rfl]
      rfl
  | txSendLegacy body =>
    obtain e | e | e := exec_txSendLegacy_uniform body s.cfg <;>
    · rw [e s rfl, e (s.withPending os) rfl]
      rfl
  | crc8Init | crc8Byte | crc16Init | crc16Byte | clearCrcErr => rfl
  | reset => exact congrArg Host.Outcome.next (resetReceiver_withPending os
      { s with crcErrLatch := false, crc8Acc := 0x00, crc16Acc := 0xFFFF })

/-- No operation issues or takes one: told that the queue holds what it holds, it ends with that in it. -/
theorem exec_pending {i : Instr} {s t : State} (h : exec i s = .next t) : t.pending = s.pending := by
  have hsame := exec_withPending s.pending s i
  rw [show s.withPending s.pending = s from rfl, h] at hsame
  injection hsame with ht
  exact (congrArg State.pending ht :)

/-! ### Runs -/

theorem run_succ_of_fault {s : State} {r : Fault} (h : step s = .fault r) (k : Nat) :
    Host.Core.run core (k + 1) s = .fault r := by
  have hcore : core.step s = .fault r := h
  simp [Host.Core.run, hcore]

/-- One step for each encoding waiting in the queue runs the operations in order. -/
theorem run_encodings (is : List Instr) (s : State) (hw : ∀ i ∈ is, i.wellFormed s.cfg.format = true)
    (hp : s.pending = []) :
    Host.Core.run core is.length (s.withPending (is.map encode)) = execAll is s := by
  induction is generalizing s with
  | nil => exact congrArg Host.Outcome.next (congrArg (fun q => { s with pending := q }) hp.symm)
  | cons i is ih =>
    obtain ⟨hi, his⟩ := List.forall_mem_cons.1 hw
    have hstep : step (s.withPending ((i :: is).map encode)) =
        onNext (State.withPending (is.map encode)) (exec i s) :=
      (step_of_decode_ok (s := s.withPending ((i :: is).map encode)) rfl (decodeOfEncode _ i hi)).trans
        (exec_withPending (is.map encode) s i)
    cases he : exec i s with
    | next t =>
      rw [he] at hstep
      rw [List.length_cons, run_succ_of_step hstep, execAll_cons he]
      exact ih t (by rwa [exec_cfg he]) ((exec_pending he).trans hp)
    | fault r =>
      rw [he] at hstep
      have hexec : execAll (i :: is) s = .fault r := by simp [execAll, he]
      exact (run_succ_of_fault hstep _).trans hexec.symm
    | refused r => exact absurd he (exec_ne_refused i s r)

/-- Settles O7: with nothing issued before them, the encodings are the whole queue. -/
theorem stepsRunOperationsInOrder : Obligations.StepsRunOperationsInOrder := by
  intro s is hp hw
  have hissue : s.issue (is.map encode) = s.withPending (is.map encode) :=
    congrArg (fun q => { s with pending := q ++ is.map encode }) hp
  rw [runOps, hissue, List.length_map]
  exact run_encodings is s hw hp

end Sys2Proof.Machine
end

section
/-! SUPPORT. The judgement of 30_encoding.md R45 on a frame cut into its parts. -/

namespace Sys2Proof.Machine

/-- A sequence of six bytes and more is four bytes, the bytes between, and two bytes. -/
theorem exists_frame_parts {f : List Byte} {n : Nat} (h : f.length = n + 6) :
    ∃ (a b c d : Byte) (p : List Byte) (x y : Byte), f = [a, b, c, d] ++ p ++ [x, y] ∧ p.length = n := by
  match f, h with
  | a :: b :: c :: d :: rest, h =>
    have hrest : rest.length = n + 2 := by simpa using h
    obtain ⟨x, y, hxy⟩ := List.length_eq_two.1 (show (rest.drop n).length = 2 by simp [hrest])
    exact ⟨a, b, c, d, rest.take n, x, y, by simp [← hxy], by simp [hrest]⟩

/-- The judgement on parts whose length field is right: header, range of the length, and CRC. -/
theorem isV2Frame_parts_iff (a b c d x y : Byte) (p : List Byte) :
    isV2Frame ([a, b, c, d] ++ p ++ [x, y]) = true ↔
      (le16 c d).toNat = p.length ∧ a = Config.hdr0 ∧ b = Config.hdr1 ∧ 1 ≤ p.length ∧ p.length ≤ 506 ∧
        le16 x y = crc16 ([c, d] ++ p) := by
  have hlen : frameLength ([a, b, c, d] ++ p ++ [x, y]) = (le16 c d).toNat := rfl
  have hx : frameByte ([a, b, c, d] ++ p ++ [x, y]) (4 + p.length) = x := by
    simp [frameByte, Nat.add_comm _ p.length]
  have hy : frameByte ([a, b, c, d] ++ p ++ [x, y]) (5 + p.length) = y := by
    simp [frameByte, Nat.add_comm _ p.length]
  have hbuf : (([a, b, c, d] ++ p ++ [x, y]).drop 2).take (2 + p.length) = [c, d] ++ p := by
    simp [Nat.add_comm _ p.length]
  have htotal : ([a, b, c, d] ++ p ++ [x, y]).length = (le16 c d).toNat + 6 ↔ (le16 c d).toNat = p.length := by
    simp [eq_comm]
  simp only [isV2Frame, hlen, Bool.and_eq_true, decide_eq_true_eq, and_assoc, htotal]
  refine and_congr_right fun hn => ?_
  rw [hn, hx, hy, hbuf]
  exact Iff.rfl

/-- The frame the framer builds is judged well-formed. -/
theorem isV2Frame_v2Frame {p : List Byte} (h₁ : 1 ≤ p.length) (h₂ : p.length ≤ 506) : isV2Frame (v2Frame p) = true :=
  (isV2Frame_parts_iff ..).2
    ⟨by rw [le16_lo_hi, lengthField_toNat h₂], rfl, rfl, h₁, h₂, le16_lo_hi _⟩

/-- Settles O10: a judged frame has the parts of its payload's frame, because two bytes make one word only. -/
theorem wellFormedV2FramesAreTheFramesOfPayloads : Obligations.WellFormedV2FramesAreTheFramesOfPayloads := by
  intro f
  constructor
  · intro h
    have hlen : f.length = frameLength f + 6 := by
      simp only [isV2Frame, Bool.and_eq_true, decide_eq_true_eq, and_assoc] at h
      exact h.1
    obtain ⟨a, b, c, d, p, x, y, rfl, -⟩ := exists_frame_parts hlen
    obtain ⟨hn, rfl, rfl, h₁, h₂, hcrc⟩ := (isV2Frame_parts_iff ..).1 h
    have hfield : le16 c d = lengthField p := BitVec.eq_of_toNat_eq (hn.trans (lengthField_toNat h₂).symm)
    obtain ⟨rfl, rfl⟩ := (le16_eq_iff ..).1 hfield
    obtain ⟨rfl, rfl⟩ := (le16_eq_iff ..).1 hcrc
    exact ⟨p, h₁, h₂, rfl⟩
  · rintro ⟨p, h₁, h₂, rfl⟩
    exact isV2Frame_v2Frame h₁ h₂

end Sys2Proof.Machine
end

section
/-! SUPPORT. When an operation stops the machine (log 8), and the invariant of 10_state.md R24 through operations, steps
and runs. -/

namespace Sys2Proof.Machine

variable {i : Instr} {s t : State}

/-! ### Where an operation stops -/

/-- Every operation but RX_BYTE answers a next state. -/
theorem exec_next_of_ne_rxByte (hi : ∀ b, i ≠ .rxByte b) (s : State) : ∃ t, exec i s = .next t := by
  cases i with
  | rxByte b => exact absurd rfl (hi b)
  | txSendV2 p => obtain e | e | e := exec_txSendV2_uniform p s.cfg <;> exact ⟨_, e s rfl⟩
  | txSendLegacy body => obtain e | e | e := exec_txSendLegacy_uniform body s.cfg <;> exact ⟨_, e s rfl⟩
  | crc8Init | crc8Byte | crc16Init | crc16Byte | clearCrcErr | reset => exact ⟨_, rfl⟩

theorem exec_rxByte_fault_iff (b : Byte) (s : State) :
    exec (.rxByte b) s = .fault .rxBufOverrun ↔ s.cfg.format = .v2 ∧
      ((s.rxState = .awaitPayload ∧ 506 ≤ s.rxCount.toNat) ∨
       (s.rxState = .awaitCrcHigh ∧ 506 < s.rxLen.toNat)) := by
  cases hf : s.cfg.format
  case v2 => simpa only [true_and, exec_rxByte_of_v2 hf] using rxByteV2_fault_iff b s
  case legacy => simp [exec_rxByte_of_legacy hf]

/-- Settles O26: the operations other than RX_BYTE go on, and RX_BYTE stops where `exec_rxByte_fault_iff` says. -/
theorem onlyABufferOverrunStops : Obligations.OnlyABufferOverrunStops := by
  refine fun i s => ⟨fun r => ?_, exec_ne_refused i s⟩
  cases r
  by_cases hi : ∃ b, i = .rxByte b
  · obtain ⟨b, rfl⟩ := hi
    simpa using exec_rxByte_fault_iff b s
  · have hi : ∀ b, i ≠ .rxByte b := not_exists.1 hi
    obtain ⟨t, ht⟩ := exec_next_of_ne_rxByte hi s
    simp [ht, hi]

/-! ### The invariant -/

/-- A state runs alike with itself, so what `RunsAlike` says of the next states holds of one state that fits its
counters. -/
theorem RunsAlike.refl (h : s.cfg.format = .v2 → RxInv s) : RunsAlike s s.unspecified :=
  ⟨h, rfl, fun _ _ => rfl, fun _ _ => ⟨rfl, rfl, fun _ _ => rfl⟩, fun _ _ => rfl, fun _ _ _ => rfl⟩

/-- From a state that fits its counters every operation goes on to one that does. -/
theorem exec_next_of_rxInv (i : Instr) (h : s.cfg.format = .v2 → RxInv s) :
    ∃ t, exec i s = .next t ∧ (t.cfg.format = .v2 → RxInv t) := by
  obtain ⟨t, _, ht, -, halike⟩ := exec_goOnAlike i (RunsAlike.refl h)
  exact ⟨t, ht, halike.rx⟩

/-- The latch of a v2 instance is never set: only a legacy mismatch sets it (10_state.md R16). -/
theorem exec_crcErrLatch_of_v2 (hf : s.cfg.format = .v2) (hl : s.crcErrLatch = false) (h : exec i s = .next t) :
    t.crcErrLatch = false := by
  obtain hkeep | ⟨hclear, -⟩ | ⟨-, b, -, herr⟩ := exec_crcErrLatch_cases h
  · exact hkeep.trans hl
  · exact hclear
  · obtain ⟨hlegacy, -⟩ := errorCondition_eq_some_iff.1 herr
    rw [hf] at hlegacy
    cases hlegacy

/-- An operation leaves the mark and the reason, or sets both (60_exceptions.md R106, log 5). -/
theorem exec_mark_cases (h : exec i s = .next t) :
    (t.refused = s.refused ∧ t.lastRefusal = s.lastRefusal) ∨ (t.refused = true ∧ ∃ r, t.lastRefusal = some r) := by
  cases i with
  | rxByte b =>
    cases hf : s.cfg.format
    case v2 =>
      rw [exec_rxByte_of_v2 hf] at h
      rw [rxByteV2_frame h]
      exact .inl ⟨rfl, rfl⟩
    case legacy =>
      rw [exec_rxByte_of_legacy hf] at h
      cases h
      obtain ⟨-, e⟩ | ⟨-, -, e⟩ | ⟨-, -, e⟩ := rxByteLegacy_cases b s <;> exact .inl (by simp [e])
  | txSendV2 p =>
    obtain e | e | e := exec_txSendV2_uniform p s.cfg <;> cases (e s rfl).symm.trans h
    · exact .inr ⟨rfl, _, rfl⟩
    · exact .inr ⟨rfl, _, rfl⟩
    · exact .inl ⟨rfl, rfl⟩
  | txSendLegacy body =>
    obtain e | e | e := exec_txSendLegacy_uniform body s.cfg <;> cases (e s rfl).symm.trans h
    · exact .inr ⟨rfl, _, rfl⟩
    · exact .inr ⟨rfl, _, rfl⟩
    · exact .inl ⟨rfl, rfl⟩
  | crc8Init | crc8Byte | crc16Init | crc16Byte | clearCrcErr => cases h; exact .inl ⟨rfl, rfl⟩
  | reset => cases h; exact .inl (by simp)

/-- Every operation keeps the invariant. -/
theorem exec_inv (hs : Inv s) (h : exec i s = .next t) : Inv t := by
  have hcfg := exec_cfg h
  refine ⟨?_, fun hf => ?_, ?_⟩
  · obtain ⟨t', ht', hrx⟩ := exec_next_of_rxInv i hs.rx
    cases ht'.symm.trans h
    exact hrx
  · rw [hcfg] at hf
    exact exec_crcErrLatch_of_v2 hf (hs.latch hf) h
  · obtain ⟨hrefused, hreason⟩ | ⟨hrefused, r, hreason⟩ := exec_mark_cases h
    · rw [hrefused, hreason, hs.mark]
    · rw [hrefused, hreason, Option.isSome_some]

/-- The queue is no part of the invariant. -/
theorem Inv.pending (hs : Inv s) (os : List Operation) : Inv { s with pending := os } := ⟨hs.rx, hs.latch, hs.mark⟩

/-- Settles O52: waiting changes nothing, a refusal sets mark and reason together, and an operation keeps the invariant
by `exec_inv`. -/
theorem stepKeepsTheInvariant : Obligations.StepKeepsTheInvariant := by
  intro s t hs h
  obtain ⟨-, e⟩ | ⟨_, _, _, -, -, e⟩ | ⟨_, rest, i, -, -, e⟩ := step_cases s <;> rw [e] at h
  · cases h
    exact hs
  · cases h
    exact ⟨hs.rx, hs.latch, rfl⟩
  · exact exec_inv (hs.pending rest) h

/-- Settles O54: a state that fits its counters goes on under every operation, and so does its step. -/
theorem noOperationStopsTheBlock : Obligations.NoOperationStopsTheBlock := by
  refine fun s hs => ⟨fun i => ?_, ?_⟩
  · obtain ⟨t, ht, -⟩ := exec_next_of_rxInv i hs.rx
    exact ⟨t, ht, exec_cfg ht⟩
  · obtain ⟨t, _, ht, -⟩ := step_goOnAlike (RunsAlike.refl hs.rx)
    exact ⟨t, ht⟩

/-- The invariant does not speak of the registers unspecified at reset while the receiver scans. -/
theorem resetFor_inv (c : Config) (u : Unspecified) : Inv ((State.resetFor c).withUnspecified u) :=
  ⟨(resetFor_runsAlike c u u).rx, fun _ => rfl, rfl⟩

/-- Settles O53: the model's own values are one choice of the unspecified registers. -/
theorem resetMeetsTheInvariant : Obligations.ResetMeetsTheInvariant := fun c u =>
  ⟨resetFor_inv c u, resetFor_inv c (State.resetFor c).unspecified⟩

/-- Every run from the invariant goes to its end and ends in it. -/
theorem run_inv (k : Nat) (hs : Inv s) : ∃ t, Host.Core.run core k s = .next t ∧ Inv t ∧ t.cfg = s.cfg := by
  induction k generalizing s with
  | zero => exact ⟨s, rfl, hs, rfl⟩
  | succ k ih =>
    obtain ⟨-, u, hu⟩ := noOperationStopsTheBlock s hs
    obtain ⟨t, ht, hinv, hcfg⟩ := ih (stepKeepsTheInvariant s u hs hu)
    exact ⟨t, (run_succ_of_step hu k).trans ht, hinv, hcfg.trans (step_cfg hu)⟩

/-- Settles O55: the run starts in the invariant, so it ends in it, and the clauses are the invariant's. -/
theorem v2InvariantsInEveryReachableState : Obligations.V2InvariantsInEveryReachableState := by
  intro c u os hf
  obtain ⟨t, ht, hinv, hcfg⟩ := run_inv os.length ((resetFor_inv c u).pending os)
  have hv2 : t.cfg.format = .v2 := (congrArg Config.format hcfg).trans hf
  obtain ⟨hpayload, hcrc⟩ := hinv.rx hv2
  refine ⟨t, ht, ?_, hpayload, fun hs => ?_, fun hs => ?_, hinv.latch hv2⟩
  · cases t.rxState <;> decide
  · obtain ⟨-, hl, hcount⟩ := hcrc hs
    exact ⟨hcount, hl⟩
  · obtain ⟨-, hl, hcount⟩ := hpayload hs
    exact Nat.le_of_lt_succ (hcount.trans_le hl)

/-! ### Two states that agree on what is written -/

/-- Settles O58: the second state is the first with other values in the unspecified registers, and the two run alike. -/
theorem stepReadsNoUnwrittenRegister : Obligations.StepReadsNoUnwrittenRegister := by
  intro s t s' hs hagree hstep
  have halike : RunsAlike s t.unspecified := ⟨hs.rx, hagree.rest ▸ hagree⟩
  obtain ⟨r, u, hr, hu, hnext⟩ := step_goOnAlike halike
  rw [← hagree.rest] at hu
  cases hr.symm.trans hstep
  exact ⟨_, hu, hnext.agree⟩

/-- Settles O59: right after reset no register counts as written. -/
theorem resetStatesAgreeOnWhatIsWritten : Obligations.ResetStatesAgreeOnWhatIsWritten := fun c u v =>
  (resetFor_runsAlike c u v).agree

end Sys2Proof.Machine
end

section
/-! SUPPORT. What an operation leaves unchanged: RX_BYTE (41_rx_v2.md R66, 42_rx_legacy.md R82), the framer
(43_tx_framer.md R90), and every operation the registers of the receiver (10_state.md R14). -/

namespace Sys2Proof.Machine

variable {i : Instr} {b : Byte} {s t : State}

/-! ### One received byte -/

/-- Which registers a byte received on the v2 wire leaves, by the receive state that alone writes them. -/
theorem rxByteV2_writes (h : rxByteV2 b s = .next t) :
    (s.rxState ≠ .awaitLengthLow → t.rxLenLo = s.rxLenLo) ∧
    (s.rxState ≠ .awaitLengthHigh → t.rxLen = s.rxLen) ∧
    (s.rxState ≠ .awaitLengthHigh → s.rxState ≠ .awaitPayload → t.rxCount = s.rxCount) ∧
    (s.rxState ≠ .awaitCrcLow → t.rxCrcLo = s.rxCrcLo) ∧
    (s.rxState ≠ .awaitCrcHigh → t.events = s.events) ∧
    (∀ i : Nat, s.rxState ≠ .awaitPayload ∨ i ≠ s.rxCount.toNat → t.rxBuf[i]? = s.rxBuf[i]?) := by
  obtain ⟨hs, rfl⟩ | ⟨hs, rfl⟩ | ⟨hs, rfl⟩ | ⟨hs, rfl⟩ | ⟨hs, -, rfl⟩ | ⟨hs, rfl⟩ | ⟨hs, -, rfl⟩ := rxByteV2_cases h
  · unfold rxHeader0
    split <;> simp
  · unfold rxHeader1
    split_ifs <;> simp
  · simp [rxLengthLow, hs]
  · unfold rxLengthHigh
    split <;> simp [hs]
  · refine ⟨fun _ => rfl, fun _ => rfl, fun _ hp => absurd hs hp, fun _ => rfl, fun _ => rfl, fun i hi => ?_⟩
    have hne : s.rxCount.toNat ≠ i := (hi.resolve_left (not_not.2 hs)).symm
    exact Vector.getElem?_setIfInBounds_ne hne
  · simp [rxCrcLow, hs]
  · split <;> simp [hs]

/-- Settles O40: `rxByteV2_frame` and `rxByteV2_writes` on the v2 wire, the three rows of `rxByteLegacy_cases` on the
other. -/
theorem rxByteFrame : Obligations.RxByteFrame := by
  refine fun b s t h => ⟨fun hf => ?_, fun hf => ?_⟩
  · rw [exec_rxByte_of_v2 hf] at h
    exact ⟨rxByteV2_frame h, rxByteV2_writes h⟩
  · rw [exec_rxByte_of_legacy hf] at h
    cases h
    obtain ⟨hi, e⟩ | ⟨h7, -, e⟩ | ⟨h7, -, e⟩ := rxByteLegacy_cases b s <;> rw [e]
    · refine ⟨rfl, id, fun _ => ⟨rfl, rfl⟩, fun i hne => ?_⟩
      exact (winWrite_getElem? s.lgWin s.lgIdx b hi i).trans (if_neg hne.symm)
    · exact ⟨rfl, id, fun hne => absurd h7 hne, fun _ _ => rfl⟩
    · exact ⟨rfl, fun _ => rfl, fun hne => absurd h7 hne, fun _ _ => rfl⟩

/-! ### Any other operation -/

/-- Settles O41: the framer's effects and the CRC and control operations name no register of the receiver, and RESET
names its sequencing state only. -/
theorem onlyReceivedBytesAndResetMoveTheReceiver : Obligations.OnlyReceivedBytesAndResetMoveTheReceiver := by
  intro i s t h hi
  cases i with
  | rxByte b => exact absurd rfl (hi b)
  | txSendV2 p =>
    obtain e | e | e := exec_txSendV2_uniform p s.cfg <;> cases (e s rfl).symm.trans h <;> simp
  | txSendLegacy body =>
    obtain e | e | e := exec_txSendLegacy_uniform body s.cfg <;> cases (e s rfl).symm.trans h <;> simp
  | crc8Init | crc8Byte | crc16Init | crc16Byte | clearCrcErr => cases h; simp
  | reset => cases h; simp

/-- Settles O44: which effect a framer operation has, the configuration and the operand decide, and each effect emits
the same from every state. -/
theorem framerIsStateless : Obligations.FramerIsStateless := by
  rintro i s t (⟨p, rfl⟩ | ⟨p, rfl⟩) h
  · obtain e | e | e := exec_txSendV2_uniform p s.cfg <;> cases (e s rfl).symm.trans h <;>
      refine ⟨rfl, fun _ => rfl, fun u v hu hv => ?_⟩ <;> cases (e u hu).symm.trans hv
    · exact ⟨[], by simp, by simp⟩
    · exact ⟨[], by simp, by simp⟩
    · exact ⟨[.txBytes (v2Frame p)], rfl, rfl⟩
  · obtain e | e | e := exec_txSendLegacy_uniform p s.cfg <;> cases (e s rfl).symm.trans h <;>
      refine ⟨rfl, nofun, fun u v hu hv => ?_⟩ <;> cases (e u hu).symm.trans hv
    · exact ⟨[], by simp, by simp⟩
    · exact ⟨[], by simp, by simp⟩
    · exact ⟨[.txBytes (legacyResponseFrame p)], rfl, rfl⟩

end Sys2Proof.Machine
end

section
/-! SUPPORT. The events an operation emits, and their shape (30_encoding.md R55). -/

namespace Sys2Proof.Machine

/-- From `s` the operation emits the event: the four places of the spec that say `emit` (41_rx_v2.md R72,
42_rx_legacy.md R84, 43_tx_framer.md R91, R94), each with the conditions it stands under. -/
inductive Emits (s : State) : Instr → Event → Prop
  | txSendV2 (p : List Byte) (hf : s.cfg.format = .v2) (h₁ : 1 ≤ p.length) (h₂ : p.length ≤ 506) :
      Emits s (.txSendV2 p) (.txBytes (v2Frame p))
  | txSendLegacy (body : List Byte) (hf : s.cfg.format = .legacy) (hb : body.length = 23) :
      Emits s (.txSendLegacy body) (.txBytes (legacyResponseFrame body))
  | rxByteV2 (b : Byte) (hf : s.cfg.format = .v2) (hs : s.rxState = .awaitCrcHigh) (hl : s.rxLen.toNat ≤ 506)
      (hcrc : le16 s.rxCrcLo b = frameCrc s.rxLen (s.rxBuf.toList.take s.rxLen.toNat)) :
      Emits s (.rxByte b) (.rxFrameV2 (s.rxBuf.toList.take s.rxLen.toNat))
  | rxByteLegacy (b : Byte) (hf : s.cfg.format = .legacy) : Emits s (.rxByte b) (.rxCmdLegacy s.lgWin.toList)

variable {i : Instr} {b : Byte} {s t : State} {e : Event}

theorem exec_rxByte_v2_events (hf : s.cfg.format = .v2) (h : exec (.rxByte b) s = .next t) :
    t.events = s.events ∨ ∃ e, t.events = s.events ++ [e] ∧ Emits s (.rxByte b) e := by
  by_cases hs : s.rxState = .awaitCrcHigh
  · have hl := rxLen_le_of_exec hf hs h
    cases (exec_rxByte_awaitCrcHigh hf hs hl b).symm.trans h
    by_cases hcrc : le16 s.rxCrcLo b = frameCrc s.rxLen (s.rxBuf.toList.take s.rxLen.toNat)
    · exact .inr ⟨_, if_pos hcrc, .rxByteV2 b hf hs hl hcrc⟩
    · exact .inl (if_neg hcrc)
  · obtain ⟨hv2, -⟩ := rxByteFrame b s t h
    obtain ⟨-, -, -, -, -, hevents, -⟩ := hv2 hf
    exact .inl (hevents hs)

theorem exec_rxByte_legacy_events (hf : s.cfg.format = .legacy) (h : exec (.rxByte b) s = .next t) :
    t.events = s.events ∨ ∃ e, t.events = s.events ++ [e] ∧ Emits s (.rxByte b) e := by
  rw [exec_rxByte_of_legacy hf] at h
  cases h
  obtain ⟨-, e⟩ | ⟨-, -, e⟩ | ⟨-, -, e⟩ := rxByteLegacy_cases b s <;> rw [e]
  · exact .inl rfl
  · exact .inr ⟨_, rfl, .rxByteLegacy b hf⟩
  · exact .inl rfl

/-- An operation emits nothing, or one event where the spec says so. -/
theorem exec_events_cases (h : exec i s = .next t) :
    t.events = s.events ∨ ∃ e, t.events = s.events ++ [e] ∧ Emits s i e := by
  cases i with
  | rxByte b =>
    cases hf : s.cfg.format
    case v2 => exact exec_rxByte_v2_events hf h
    case legacy => exact exec_rxByte_legacy_events hf h
  | txSendV2 p =>
    obtain ⟨-, e⟩ | ⟨-, -, e⟩ | ⟨hf, ⟨h₁, h₂⟩, e⟩ := execTxSendV2_cases p s <;> cases Eq.trans e.symm h
    · exact .inl rfl
    · exact .inl rfl
    · exact .inr ⟨_, rfl, .txSendV2 p hf h₁ h₂⟩
  | txSendLegacy body =>
    obtain ⟨-, e⟩ | ⟨-, -, e⟩ | ⟨hf, hl, e⟩ := execTxSendLegacy_cases body s <;> cases Eq.trans e.symm h
    · exact .inl rfl
    · exact .inl rfl
    · exact .inr ⟨_, by simp, .txSendLegacy body hf (Nat.succ_injective hl)⟩
  | crc8Init | crc8Byte | crc16Init | crc16Byte | clearCrcErr => cases h; exact .inl rfl
  | reset => cases h; exact .inl (by simp)

/-- Settles O45: each way to emit names the operation, the kind of event and the format. -/
theorem whoEmitsWhat : Obligations.WhoEmitsWhat := by
  intro i s t h
  refine (exec_events_cases h).imp_right fun ⟨e, hevents, he⟩ => ⟨e, hevents, ?_⟩
  cases he with
  | txSendV2 p => exact .inl ⟨⟨_, rfl⟩, .inl ⟨p, rfl⟩⟩
  | txSendLegacy body => exact .inl ⟨⟨_, rfl⟩, .inr ⟨body, rfl⟩⟩
  | rxByteV2 b hf => exact .inr (.inl ⟨⟨_, rfl⟩, ⟨b, rfl⟩, hf⟩)
  | rxByteLegacy b hf => exact .inr (.inr ⟨⟨_, rfl⟩, ⟨b, rfl⟩, hf⟩)

/-- What is emitted has the shape of its kind. In CH the length is an accepted one. -/
theorem Emits.okFor (h : Emits s i e) (hrx : s.cfg.format = .v2 → RxInv s) : e.okFor s.cfg.format := by
  cases h with
  | txSendV2 p hf h₁ h₂ =>
    rw [hf]
    refine ⟨fun _ => ⟨isV2Frame_v2Frame h₁ h₂, ?_⟩, nofun⟩
    rw [v2Frame_length]
    exact ⟨Nat.add_le_add_right h₁ 6, Nat.add_le_add_right h₂ 6⟩
  | txSendLegacy body hf hb =>
    rw [hf]
    exact ⟨nofun, fun _ => ⟨by rw [legacyResponseFrame_length, hb], by simp [legacyResponseFrame]⟩⟩
  | rxByteV2 b hf hs hl =>
    obtain ⟨h₁, -⟩ := (hrx hf).2 (.inr hs)
    have hlen := bufSlice_length (bufSlice_eq s.rxBuf s.rxLen hl)
    exact ⟨hf, h₁.trans_eq hlen.symm, hlen.trans_le hl⟩
  | rxByteLegacy b hf => exact ⟨hf, Vector.length_toList⟩

/-- Settles O56: a step that waits or refuses emits nothing, and an operation emits what `Emits.okFor` speaks of. -/
theorem emittedEventsAreWellShaped : Obligations.EmittedEventsAreWellShaped := by
  intro s t hs hok h
  obtain ⟨-, e⟩ | ⟨_, _, _, -, -, e⟩ | ⟨_, rest, i, -, -, e⟩ := step_cases s <;> rw [e] at h
  · cases h
    exact hok
  · cases h
    exact hok
  · rw [exec_cfg h]
    obtain hevents | ⟨e, hevents, he⟩ := exec_events_cases h
    · rw [hevents]
      exact hok
    · rw [hevents]
      exact List.forall_mem_append.2 ⟨hok, List.forall_mem_singleton.2 (he.okFor (hs.pending rest).rx)⟩

end Sys2Proof.Machine
end

section
/-! SUPPORT. The two framer operations, each with the frame it emits written out (43_tx_framer.md R91, R94, R95). -/

namespace Sys2Proof.Machine

theorem exec_txSendV2_of_legacy {s : State} (hf : s.cfg.format = .legacy) (p : List Byte) :
    exec (.txSendV2 p) s = .next (refuse .wrongFormat s) := if_pos (by simp [hf])

theorem exec_txSendV2_of_length {s : State} (hf : s.cfg.format = .v2) {p : List Byte}
    (hp : p.length = 0 ∨ 506 < p.length) : exec (.txSendV2 p) s = .next (refuse .txLength s) := by
  have hl : p.length < Config.minPayload ∨ p.length > Config.maxPayload := hp.imp_left Nat.lt_one_iff.2
  exact (if_neg (not_not.2 hf)).trans (if_pos hl)

theorem exec_txSendLegacy_emits {s : State} (hf : s.cfg.format = .legacy) {body : List Byte} (hb : body.length = 23) :
    exec (.txSendLegacy body) s = .next { s with
      events := s.events ++ [.txBytes (body ++ [crc8 body])]
      crcErrLatch := !s.cfg.clearLatchOnReport && s.crcErrLatch } := by
  have hw : (Instr.txSendLegacy body).wellFormed s.cfg.format = true := by simp [Instr.wellFormed, hf, hb]
  rw [exec, execTxSendLegacy_of_wellFormed hw, reportLatch_eq]
  rfl

theorem exec_txSendLegacy_of_v2 {s : State} (hf : s.cfg.format = .v2) (body : List Byte) :
    exec (.txSendLegacy body) s = .next (refuse .wrongFormat s) := if_pos (by simp [hf])

theorem exec_txSendLegacy_of_length {s : State} (hf : s.cfg.format = .legacy) {body : List Byte}
    (hb : body.length ≠ 23) : exec (.txSendLegacy body) s = .next (refuse .txLength s) :=
  (if_neg (not_not.2 hf)).trans (if_pos hb)

/-- The CRC of the example of 43_tx_framer.md R91. -/
theorem frameCrc_example : frameCrc (lengthField [0x01, 0x02, 0x03]) [0x01, 0x02, 0x03] = 0x9EEF := by
  simp [frameCrc_lengthField, crc16, crc16Update, crc16Shift, Config.crc16Init, Config.crc16Poly,
    Function.iterate_succ_apply']

theorem v2Frame_example :
    v2Frame [0x01, 0x02, 0x03] = [0xAA, 0xBB, 0x03, 0x00, 0x01, 0x02, 0x03, 0xEF, 0x9E] := by
  rw [v2Frame, frameCrc_example]
  decide

/-- The trailer of the example of 43_tx_framer.md R94. -/
theorem crc8_example : crc8 ([0x01, 0x00] ++ List.replicate 21 0x00) = 0xB9 := by
  simp [crc8, crc8Update, crc8Shift, Config.crc8Init, Config.crc8Poly, Function.iterate_succ_apply']

/-- Settles O42: the frame's length bytes are those of the payload's length; a 506-byte payload has the length bytes of
0x01FA. -/
theorem txSendV2EmitsOneFrame : Obligations.TxSendV2EmitsOneFrame := by
  refine ⟨fun p s hf h₁ h₂ => ?_, fun p s hf => exec_txSendV2_of_legacy hf p, fun p s hf => exec_txSendV2_of_length hf,
    
    fun p => congrArg (Operation.mk · (some p)) (packWord_zero_eq_or 2 0), fun p hp => ?_, v2Frame_example⟩
  · rw [exec_txSendV2_emits hf h₁ h₂, v2Frame, frameCrc_lengthField, lo_lengthField, hi_lengthField]
    rfl
  · obtain ⟨hlen, -, -, -, -, hlow, hhigh, -⟩ := v2FrameLayout p (by omega) (by omega)
    rw [hlen, hlow, hhigh, hp]
    decide

/-- Settles O43: the latch clause is the parameter's two cases. -/
theorem txSendLegacyEmitsOneFrame : Obligations.TxSendLegacyEmitsOneFrame := by
  refine ⟨fun body s hf hb => ?_, fun body s hf => exec_txSendLegacy_of_v2 hf body,
    fun body s hf => exec_txSendLegacy_of_length hf, 
    fun body => congrArg (Operation.mk · (some body)) (packWord_zero_eq_or 3 0), ?_, crc8_example⟩
  · rw [exec_txSendLegacy_emits hf hb]
    cases hc : s.cfg.clearLatchOnReport <;> rfl
  · rw [crc8_replicate_zero, ← List.replicate_succ']

/-- Settles O38: the mismatch sets the latch, and the report then leaves it set or clears it as the parameter says. -/
theorem latchReportingRace : Obligations.LatchReportingRace := by
  intro b body s hf h7 hb hbody
  have hmismatch := exec_rxByte_trailer_mismatch hf h7 hb
  have hreport := exec_txSendLegacy_emits (s := { s with crcErrLatch := true, lgIdx := 0 }) hf hbody
  rw [execAll_cons hmismatch, execAll_cons hreport, execAll_nil]
  simp only [Bool.and_true]

end Sys2Proof.Machine
end

section
/-! SUPPORT. Streams of whole legacy windows (42_rx_legacy.md R85). -/

namespace Sys2Proof.Machine

variable {s : State}

/-- Eight bytes are the window's content and its trailer. -/
theorem exists_window_parts {w : List Byte} (h : w.length = 8) : ∃ c b, w = c ++ [b] ∧ c.length = 7 := by
  have hne : w ≠ [] := List.ne_nil_of_length_eq_add_one h
  exact ⟨w.dropLast, w.getLast hne, (List.dropLast_append_getLast hne).symm, by rw [List.length_dropLast, h]⟩

theorem trailerMatches_append {c : List Byte} (hc : c.length = 7) (b : Byte) :
    trailerMatches (c ++ [b]) = decide (b = crc8 c) := by
  have hc : c.length = Config.legacyContentLen := hc
  rw [trailerMatches, List.drop_left' hc, List.take_left' hc]
  simp [beq_eq_decide]

/-- One whole window from position 0 (42_rx_legacy.md R84). -/
theorem feed_wholeWindow {w : List Byte} (hf : s.cfg.format = .legacy) (h0 : s.lgIdx = 0) (hw : w.length = 8) :
    ∃ win, feed w s = .next { s with
      events := s.events ++ deliveredWindows [w]
      crcErrLatch := s.crcErrLatch || someMismatch [w]
      lgIdx := 0
      lgWin := win } := by
  obtain ⟨c, b, rfl, hc⟩ := exists_window_parts hw
  obtain ⟨win, rfl, hfeed⟩ := feed_content hf h0 hc
  refine ⟨win, (feed_append hfeed).trans ?_⟩
  by_cases hb : b = crc8 win.toList
  · have htrailer := exec_rxByte_trailer_match (s := { s with lgWin := win, lgIdx := 7 }) hf rfl hb
    have hm : trailerMatches (win.toList ++ [b]) = true := by simp [trailerMatches_append hc, hb]
    rw [feed_cons htrailer]
    simp [deliveredWindows, someMismatch, hm, hc]
  · have htrailer := exec_rxByte_trailer_mismatch (s := { s with lgWin := win, lgIdx := 7 }) hf rfl hb
    have hm : trailerMatches (win.toList ++ [b]) = false := by simp [trailerMatches_append hc, hb]
    rw [feed_cons htrailer]
    simp [deliveredWindows, someMismatch, hm]

/-- Settles O36: window by window, each from position 0 to position 0. -/
theorem legacyWindowsAreBlockAligned : Obligations.LegacyWindowsAreBlockAligned := by
  intro s ws
  induction ws generalizing s with
  | nil =>
    intro hf h0 _
    refine ⟨s, rfl, ?_⟩
    simp [deliveredWindows, someMismatch, ← h0]
  | cons w ws ih =>
    intro hf h0 hws
    obtain ⟨hw, hws⟩ := List.forall_mem_cons.1 hws
    obtain ⟨win, hfeed⟩ := feed_wholeWindow hf h0 hw
    obtain ⟨t, ht, heq⟩ := ih { s with
      events := s.events ++ deliveredWindows [w]
      crcErrLatch := s.crcErrLatch || someMismatch [w]
      lgIdx := 0
      lgWin := win } hf rfl hws
    refine ⟨t, (feed_append hfeed).trans ht, heq.trans ?_⟩
    have hdelivered : deliveredWindows (w :: ws) = deliveredWindows [w] ++ deliveredWindows ws := by
      simp [deliveredWindows, ← List.map_append, ← List.filter_append]
    simp [hdelivered, someMismatch, Bool.or_assoc]

end Sys2Proof.Machine
end

section
/-! SUPPORT. A payload and its CRC absorbed whatever the bytes are (41_rx_v2.md R70 to R74), and the round trip of
R75. -/

namespace Sys2Proof.Machine

variable {s : State}

/-- Settles O24: the byte is written at the count, which is inside the buffer. -/
theorem v2PayloadByteIsStoredAndCounted : Obligations.V2PayloadByteIsStoredAndCounted := by
  intro b s hf hs hc hl
  have hin : s.rxCount.toNat < 506 := hc.trans_le hl
  refine ⟨_, exec_rxByte_awaitPayload hf hs hin b, rfl, fun i => ?_⟩
  rw [Vector.getElem?_setIfInBounds, if_pos (show s.rxCount.toNat < Config.maxPayload from hin)]
  exact if_congr eq_comm rfl rfl

/-- Settles O27: `feed_frame` with the payload's own CRC and no extra header byte. -/
theorem v2RoundTrip : Obligations.V2RoundTrip := by
  intro s p hf hs h₁ h₂
  obtain ⟨buf, hbuf, hfeed⟩ :=
    feed_frame 0 (lengthField p) (frameCrc (lengthField p) p) p hf hs (lengthField_toNat h₂) h₁ h₂
  rw [if_pos rfl] at hfeed
  exact ⟨_, hfeed, rfl, hbuf⟩

/-- Exactly the accepted number of bytes, from the first payload byte on, fills the payload and awaits the CRC. -/
theorem feed_wholePayload {q : List Byte} (hf : s.cfg.format = .v2) (hs : s.rxState = .awaitPayload)
    (h0 : s.rxCount = 0) (h₁ : 1 ≤ s.rxLen.toNat) (h₂ : s.rxLen.toNat ≤ 506) (hq : q.length = s.rxLen.toNat) :
    ∃ buf : Vector Byte Config.maxPayload, buf.toList.take s.rxLen.toNat = q ∧
      feed q s = .next { s with rxBuf := buf, rxCount := s.rxLen, rxState := .awaitCrcLow } := by
  have hcount : s.rxCount.toNat = 0 := by rw [h0]; rfl
  obtain ⟨buf, hbuf, hfeed⟩ := feed_payload q hf (hs.trans (if_neg (by omega)).symm) h₂ (by omega)
  simp only [hcount, hq, zero_add, ↓reduceIte, BitVec.ofNat_toNat, BitVec.setWidth_eq, List.take_zero,
    List.nil_append] at hbuf hfeed
  exact ⟨buf, by rw [hbuf, ← hq, List.take_left], hfeed⟩

/-- One byte more is the low CRC byte. -/
theorem feed_wholePayload_crcLow {q : List Byte} (hf : s.cfg.format = .v2) (hs : s.rxState = .awaitPayload)
    (h0 : s.rxCount = 0) (h₁ : 1 ≤ s.rxLen.toNat) (h₂ : s.rxLen.toNat ≤ 506) (hq : q.length = s.rxLen.toNat)
    (c : Byte) :
    ∃ buf : Vector Byte Config.maxPayload, buf.toList.take s.rxLen.toNat = q ∧
      feed (q ++ [c]) s = .next { s with
        rxBuf := buf, rxCount := s.rxLen, rxCrcLo := c, rxState := .awaitCrcHigh } := by
  obtain ⟨buf, hbuf, hfeed⟩ := feed_wholePayload hf hs h0 h₁ h₂ hq
  have hlow := exec_rxByte_awaitCrcLow
    (s := { s with rxBuf := buf, rxCount := s.rxLen, rxState := .awaitCrcLow }) hf rfl c
  exact ⟨buf, hbuf, (feed_append hfeed).trans (feed_cons hlow)⟩

/-- Settles O32: at most the accepted number of bytes is a payload in progress; one more is the low CRC byte, and the
one after it decides the delivery of the payload. -/
theorem v2AcceptedLengthAbsorbsItsBytes : Obligations.V2AcceptedLengthAbsorbsItsBytes := by
  intro s bs hf hs h0 h₁ h₂
  have hcount : s.rxCount.toNat = 0 := by rw [h0]; rfl
  have hsplit : bs.take s.rxLen.toNat ++ bs.drop s.rxLen.toNat = bs := List.take_append_drop ..
  have hrest : (bs.drop s.rxLen.toNat).length = bs.length - s.rxLen.toNat := List.length_drop
  have hwhole (hle : s.rxLen.toNat ≤ bs.length) :=
    feed_wholePayload_crcLow hf hs h0 h₁ h₂ (List.length_take_of_le hle)
  refine ⟨fun hlt => ?_, fun heq => ?_⟩
  · by_cases hle : bs.length ≤ s.rxLen.toNat
    · obtain ⟨buf, -, hfeed⟩ := feed_payload bs hf (hs.trans (if_neg (by omega)).symm) h₂ (by omega)
      refine ⟨_, hfeed, rfl, ?_⟩
      split_ifs <;> simp
    · obtain ⟨c, hc⟩ := List.length_eq_one_iff.1 (hrest.trans (by omega))
      obtain ⟨buf, -, hfeed⟩ := hwhole (by omega) c
      rw [← hc, hsplit] at hfeed
      exact ⟨_, hfeed, rfl, .inr (.inr rfl)⟩
  · obtain ⟨c, d, hcd⟩ := List.length_eq_two.1 (hrest.trans (by omega))
    obtain ⟨buf, hbuf, hfeed⟩ := hwhole (by omega) c
    have hhigh := exec_rxByte_awaitCrcHigh (s := { s with
      rxBuf := buf, rxCount := s.rxLen, rxCrcLo := c, rxState := .awaitCrcHigh }) hf rfl h₂ d
    have hrun := (feed_append (cs := [d]) hfeed).trans (feed_cons hhigh)
    rw [List.append_assoc, List.singleton_append, ← hcd, hsplit] at hrun
    refine ⟨_, hrun, rfl, ?_⟩
    rw [hbuf]
    split_ifs <;> simp

end Sys2Proof.Machine
end

section
/-! SUPPORT. The v2 reassembler over any stream from the header scan: what it has kept of a frame in progress stands at
the end of the stream (41_rx_v2.md R66 to R72, 60_exceptions.md R114). -/

namespace Sys2Proof.Machine

variable {s t : State} {b : Byte} {bs : List Byte}

/-! ### The frame in progress -/

/-- The bytes of the frame in progress, as the receive state and the registers it has written hold them. -/
def frameSoFar (s : State) : List Byte :=
  match s.rxState with
  | .awaitHeaderByte0 => []
  | .awaitHeaderByte1 => [Config.hdr0]
  | .awaitLengthLow => [Config.hdr0, Config.hdr1]
  | .awaitLengthHigh => [Config.hdr0, Config.hdr1, s.rxLenLo]
  | .awaitPayload | .awaitCrcLow =>
    [Config.hdr0, Config.hdr1, lo s.rxLen, hi s.rxLen] ++ s.rxBuf.toList.take s.rxCount.toNat
  | .awaitCrcHigh =>
    [Config.hdr0, Config.hdr1, lo s.rxLen, hi s.rxLen] ++ s.rxBuf.toList.take s.rxCount.toNat ++ [s.rxCrcLo]

theorem frameSoFar_awaitHeaderByte0 (hs : s.rxState = .awaitHeaderByte0) : frameSoFar s = [] := by
  rw [frameSoFar, hs]

theorem frameSoFar_payload (hs : s.rxState = .awaitPayload ∨ s.rxState = .awaitCrcLow) : frameSoFar s =
    [Config.hdr0, Config.hdr1, lo s.rxLen, hi s.rxLen] ++ s.rxBuf.toList.take s.rxCount.toNat := by
  obtain hs | hs := hs <;> rw [frameSoFar, hs]

/-- A payload byte is the next byte of the frame in progress. -/
theorem exec_rxByte_awaitPayload_frameSoFar (hf : s.cfg.format = .v2) (hs : s.rxState = .awaitPayload)
    (h : exec (.rxByte b) s = .next t) : frameSoFar t = frameSoFar s ++ [b] := by
  have hc := rxCount_lt_of_exec hf hs h
  have hnext : (BitVec.ofNat 16 (s.rxCount.toNat + 1)).toNat = s.rxCount.toNat + 1 := by
    rw [BitVec.toNat_ofNat]
    omega
  have hin : s.rxCount.toNat < s.rxBuf.toList.length := hc.trans_eq Vector.length_toList.symm
  cases (exec_rxByte_awaitPayload hf hs hc b).symm.trans h
  rw [frameSoFar_payload (.inl hs), frameSoFar_payload (by split_ifs <;> simp)]
  simp only [hnext, Vector.toList_setIfInBounds, take_succ_set hin, List.append_assoc]

/-- A received byte continues the frame in progress, or what is left of it is an end of the bytes so far: the second
header byte where it is the first one again, and nothing where the frame is given up or over. -/
theorem exec_rxByte_frameSoFar (hf : s.cfg.format = .v2) (h : exec (.rxByte b) s = .next t) :
    frameSoFar t <:+ frameSoFar s ++ [b] := by
  cases hs : s.rxState
  case awaitHeaderByte0 =>
    cases (exec_rxByte_awaitHeaderByte0 hf hs b).symm.trans h
    by_cases hb : b = Config.hdr0 <;> simp [frameSoFar, hs, hb]
  case awaitHeaderByte1 =>
    cases (exec_rxByte_awaitHeaderByte1 hf hs b).symm.trans h
    by_cases h₁ : b = Config.hdr1
    · simp [frameSoFar, hs, h₁]
    · by_cases h₀ : b = Config.hdr0
      · subst h₀
        simp [frameSoFar, hs, h₁]
      · simp [frameSoFar, hs, h₁, h₀]
  case awaitLengthLow =>
    cases (exec_rxByte_awaitLengthLow hf hs b).symm.trans h
    simp [frameSoFar, hs]
  case awaitLengthHigh =>
    by_cases hlen : (le16 s.rxLenLo b).toNat = 0 ∨ 506 < (le16 s.rxLenLo b).toNat
    · cases (exec_rxByte_length_rejected hf hs hlen).symm.trans h
      exact List.nil_suffix
    · cases (exec_rxByte_length_accepted hf hs (by omega) (by omega)).symm.trans h
      simp [frameSoFar, hs]
  case awaitPayload => rw [exec_rxByte_awaitPayload_frameSoFar hf hs h]
  case awaitCrcLow =>
    cases (exec_rxByte_awaitCrcLow hf hs b).symm.trans h
    simp [frameSoFar, hs]
  case awaitCrcHigh =>
    cases (exec_rxByte_awaitCrcHigh hf hs (rxLen_le_of_exec hf hs h) b).symm.trans h
    exact List.nil_suffix

/-! ### What is delivered -/

/-- The event is the delivery of a payload whose whole frame stands in the stream. -/
def DeliversFrameOf (bs : List Byte) (e : Event) : Prop :=
  ∃ p before after : List Byte, e = .rxFrameV2 p ∧ 1 ≤ p.length ∧ p.length ≤ 506 ∧ bs = before ++ v2Frame p ++ after

theorem DeliversFrameOf.append {e : Event} (h : DeliversFrameOf bs e) (cs : List Byte) :
    DeliversFrameOf (bs ++ cs) e := by
  obtain ⟨p, before, after, he, h₁, h₂, rfl⟩ := h
  exact ⟨p, before, after ++ cs, he, h₁, h₂, List.append_assoc ..⟩

/-- A delivery's frame is the frame in progress with the byte that completes it. -/
theorem Emits.frame_eq {e : Event} (he : Emits s (.rxByte b) e) (hf : s.cfg.format = .v2) (hrx : RxInv s) :
    ∃ p, e = .rxFrameV2 p ∧ 1 ≤ p.length ∧ p.length ≤ 506 ∧ v2Frame p = frameSoFar s ++ [b] := by
  cases he with
  | rxByteV2 _ _ hs hl hcrc =>
    obtain ⟨h₁, -, hcount⟩ := hrx.2 (.inr hs)
    have hlen := bufSlice_length (bufSlice_eq s.rxBuf s.rxLen hl)
    have hfield : lengthField (s.rxBuf.toList.take s.rxLen.toNat) = s.rxLen := by
      rw [lengthField, hlen, BitVec.ofNat_toNat, BitVec.setWidth_eq]
    obtain ⟨hlow, hhigh⟩ := (le16_eq_iff ..).1 hcrc
    refine ⟨_, rfl, h₁.trans_eq hlen.symm, hlen.trans_le hl, ?_⟩
    simp [v2Frame, frameSoFar, hfield, hs, hcount, ← hlow, ← hhigh]
  | rxByteLegacy _ hlegacy => simp [hf] at hlegacy

/-! ### Any stream -/

/-- A v2 instance after the stream `bs`: it fits its counters, and the frame in progress ends the stream. -/
structure Scanned (bs : List Byte) (s : State) : Prop where
  format : s.cfg.format = .v2
  rx : RxInv s
  tail : frameSoFar s <:+ bs

/-- One more byte of the stream: what it delivers stands in the stream, and a byte of `rx_buf` that the frame in
progress cannot have reached is kept. -/
theorem Scanned.next (h : Scanned bs s) (b : Byte) :
    ∃ (t : State) (es : List Event), exec (.rxByte b) s = .next t ∧ Scanned (bs ++ [b]) t ∧
      t.events = s.events ++ es ∧ (∀ e ∈ es, DeliversFrameOf (bs ++ [b]) e) ∧
      ∀ i : Nat, bs.length < 4 + i → t.rxBuf[i]? = s.rxBuf[i]? := by
  obtain ⟨before, hbefore⟩ := h.tail
  obtain ⟨t, ht, hrx⟩ := exec_next_of_rxInv (.rxByte b) fun _ => h.rx
  have hformat : t.cfg.format = .v2 := (congrArg Config.format (exec_cfg ht)).trans h.format
  have hscanned : Scanned (bs ++ [b]) t := by
    refine ⟨hformat, hrx hformat, (exec_rxByte_frameSoFar h.format ht).trans ⟨before, ?_⟩⟩
    rw [← List.append_assoc, hbefore]
  have hkept (i : Nat) (hi : bs.length < 4 + i) : t.rxBuf[i]? = s.rxBuf[i]? := by
    rw [exec_rxByte_of_v2 h.format] at ht
    obtain ⟨-, -, -, -, -, hbuf⟩ := rxByteV2_writes ht
    refine hbuf i (or_iff_not_imp_left.2 fun hs => ?_)
    have hs := not_not.1 hs
    obtain ⟨-, hl, hc⟩ := h.rx.1 hs
    have hlen := h.tail.length_le
    have hl : s.rxLen.toNat ≤ 506 := hl
    rw [frameSoFar_payload (.inl hs), List.length_append, List.length_take, Vector.length_toList,
      Nat.min_eq_left (show s.rxCount.toNat ≤ 506 by omega)] at hlen
    have hlen : 4 + s.rxCount.toNat ≤ bs.length := hlen
    omega
  obtain hevents | ⟨e, hevents, he⟩ := exec_events_cases ht
  · exact ⟨t, [], ht, hscanned, by simpa using hevents, nofun, hkept⟩
  · obtain ⟨p, hp, h₁, h₂, hframe⟩ := he.frame_eq h.format h.rx
    refine ⟨t, [e], ht, hscanned, hevents, List.forall_mem_singleton.2 ⟨p, before, [], hp, h₁, h₂, ?_⟩, hkept⟩
    rw [hframe, List.append_nil, ← List.append_assoc, hbefore]

/-- Any stream from the header scan. -/
theorem feed_scanned (bs : List Byte) (hf : s.cfg.format = .v2) (hs : s.rxState = .awaitHeaderByte0) :
    ∃ (t : State) (es : List Event), feed bs s = .next t ∧ Scanned bs t ∧ t.events = s.events ++ es ∧
      (∀ e ∈ es, DeliversFrameOf bs e) ∧ ∀ i : Nat, bs.length < 5 + i → t.rxBuf[i]? = s.rxBuf[i]? := by
  induction bs using List.reverseRecOn with
  | nil =>
    have hrx : RxInv s := by simp [RxInv, hs]
    exact ⟨s, [], rfl, ⟨hf, hrx, by rw [frameSoFar_awaitHeaderByte0 hs]⟩, by simp, nofun, fun _ _ => rfl⟩
  | append_singleton bs b ih =>
    obtain ⟨t, es, ht, hscanned, hevents, hes, hkept⟩ := ih
    obtain ⟨u, fs, hu, hscanned', hevents', hfs, hkept'⟩ := hscanned.next b
    refine ⟨u, es ++ fs, (feed_append ht).trans (feed_cons hu), hscanned', ?_, ?_, fun i hi => ?_⟩
    · rw [hevents', hevents, List.append_assoc]
    · exact List.forall_mem_append.2 ⟨fun e he => (hes e he).append [b], hfs⟩
    · rw [List.length_append, List.length_singleton] at hi
      rw [hkept' i (by omega), hkept i (by omega)]

/-- Settles O31: `feed_scanned`, without the buffer. -/
theorem v2DeliversOnlyFramesInTheStream : Obligations.V2DeliversOnlyFramesInTheStream := by
  intro s bs hf hs
  obtain ⟨t, es, ht, -, hevents, hes, -⟩ := feed_scanned bs hf hs
  exact ⟨t, es, ht, hevents, hes⟩

/-! ### How long received bytes are kept (70_reset_and_hazards.md R123) -/

/-- The bytes of a frame up to its payload byte `i`: that byte is then in the buffer. -/
theorem feed_v2Frame_take {p : List Byte} {i : Nat} (hf : s.cfg.format = .v2) (hs : s.rxState = .awaitHeaderByte0)
    (hp : p.length ≤ 506) (hlt : i < p.length) :
    ∃ t, feed ((v2Frame p).take (5 + i)) s = .next t ∧ t.rxBuf[i]? = p[i]? := by
  have hle : i + 1 ≤ p.length := hlt
  have hlen := lengthField_toNat hp
  have hbytes : (v2Frame p).take (5 + i) =
      [Config.hdr0, Config.hdr1] ++ ([lo (lengthField p), hi (lengthField p)] ++ p.take (i + 1)) := by
    rw [show 5 + i = i + 1 + 4 by omega]
    simp [v2Frame, List.take_append_of_le_length hle]
  have hlow := exec_rxByte_awaitLengthLow (s := { s with rxState := .awaitLengthLow }) hf rfl (lo (lengthField p))
  have hhigh := exec_rxByte_length_accepted
    (s := { s with rxLenLo := lo (lengthField p), rxState := .awaitLengthHigh }) (b := hi (lengthField p)) hf rfl
    (by rw [le16_lo_hi]; omega) (by rw [le16_lo_hi]; omega)
  rw [le16_lo_hi] at hhigh
  obtain ⟨buf, hbuf, hpayload⟩ := feed_payload (p.take (i + 1)) (s := { s with
    rxLenLo := lo (lengthField p), rxLen := lengthField p, rxCount := 0, rxState := .awaitPayload })
    hf (if_neg (show ¬ 0 = (lengthField p).toNat by omega)).symm (hlen.trans_le hp) (by simp [hlen])
  rw [hbytes]
  refine ⟨_, (feed_append (feed_header hf hs 0)).trans ((feed_cons hlow).trans ((feed_cons hhigh).trans hpayload)), ?_⟩
  show buf[i]? = p[i]?
  rw [← Vector.getElem?_toList, hbuf]
  simp [List.getElem?_append, hle]

/-- A legacy instance receives any stream to its end. -/
theorem feed_legacy_next (bs : List Byte) (hf : s.cfg.format = .legacy) : ∃ t, feed bs s = .next t := by
  induction bs generalizing s with
  | nil => exact ⟨s, rfl⟩
  | cons b bs ih =>
    obtain ⟨t, ht⟩ := ih (s := rxByteLegacy b s) (by rw [rxByteLegacy_cfg, hf])
    exact ⟨t, (feed_cons (exec_rxByte_of_legacy hf b)).trans ht⟩

/-- Bytes from position 0 that fit in the window stand at its start, and the rest of it is kept. -/
theorem feed_window_of_start {q : List Byte} (hf : s.cfg.format = .legacy) (h0 : s.lgIdx = 0) (hq : q.length ≤ 7) :
    ∃ (idx : Fin Config.legacyCmdLen) (win : Vector Byte Config.legacyContentLen),
      win.toList = q ++ s.lgWin.toList.drop q.length ∧ feed q s = .next { s with lgWin := win, lgIdx := idx } := by
  obtain ⟨idx, win, -, hwin, hfeed⟩ := feed_window q hf (by simpa [h0] using hq)
  exact ⟨idx, win, by simpa [h0] using hwin, hfeed⟩

/-- Settles O39: `feed_scanned` and `feed_v2Frame_take` for `rx_buf`; for `lg_win`, which has no byte beyond index 6,
`feed_window_of_start` with the bytes that fit it. -/
theorem receiveBufferReuseDistance : Obligations.ReceiveBufferReuseDistance := by
  refine ⟨fun s bs hf hs => ?_, fun s p i hf hs hp hi => feed_v2Frame_take hf hs hp hi, fun s bs hf h0 => ?_,
    fun s bs i hi hf h0 hbs => ?_⟩
  · obtain ⟨t, _, ht, -, -, -, hkept⟩ := feed_scanned bs hf hs
    exact ⟨t, ht, hkept⟩
  · by_cases hle : bs.length ≤ 7
    · obtain ⟨_, win, hwin, ht⟩ := feed_window_of_start hf h0 hle
      refine ⟨_, ht, fun i hi => ?_⟩
      show win[i]? = s.lgWin[i]?
      rw [← Vector.getElem?_toList, hwin, List.getElem?_append_right (by omega), List.getElem?_drop,
        Nat.add_sub_cancel' (by omega), Vector.getElem?_toList]
    · obtain ⟨t, ht⟩ := feed_legacy_next bs hf
      refine ⟨t, ht, fun i hi => ?_⟩
      have hout : 7 ≤ i := by omega
      rw [Vector.getElem?_eq_none hout, Vector.getElem?_eq_none hout]
  · obtain ⟨_, win, hwin, ht⟩ := feed_window_of_start hf h0 (hbs.trans_le (by omega))
    refine ⟨_, ht, ?_⟩
    show win[i]? = bs[i]?
    rw [← Vector.getElem?_toList, hwin, List.getElem?_append_left (by omega)]

end Sys2Proof.Machine
end

section
/-! SUPPORT. The CRC updates bit by bit (20_memory.md R38): a byte XORed in at once and its bits let in at the top one
after another make the same word. -/

namespace Sys2Proof.Machine

variable {w : Nat}

/-- One pass that tests the top bit before the shift (40_crc.md R58, R60). -/
def topBitPass (poly a : BitVec (w + 1)) : BitVec (w + 1) :=
  if a.getLsbD w then (a <<< 1) ^^^ poly else a <<< 1

/-- One pass that lets a bit in at the top as it goes: the polynomial is taken where the two differ. -/
def bitPass (poly a : BitVec (w + 1)) (bit : Bool) : BitVec (w + 1) :=
  (a <<< 1) ^^^ (if a.getLsbD w = bit then 0 else poly)

/-- A pass over a word with bits XORed in takes the top one of them, and moves the others up. -/
theorem topBitPass_xor (poly a c : BitVec (w + 1)) :
    topBitPass poly (a ^^^ c) = bitPass poly a (c.getLsbD w) ^^^ (c <<< 1) := by
  rw [topBitPass, bitPass, BitVec.getLsbD_xor, BitVec.shiftLeft_xor_distrib]
  cases a.getLsbD w <;> cases c.getLsbD w <;> simp [xor_right_swap]

/-- `n` passes take the top `n` of the bits XORed in, one a pass, and leave the others XORed in. -/
theorem topBitPass_iterate_xor (poly a c : BitVec (w + 1)) {n : Nat} (hn : n ≤ w + 1) :
    (topBitPass poly)^[n] (a ^^^ c) =
      (List.range n).foldl (fun a j => bitPass poly a (c.getLsbD (w - j))) a ^^^ (c <<< n) := by
  induction n with
  | zero => simp
  | succ n ih =>
    have htop : (c <<< n).getLsbD w = c.getLsbD (w - n) := by
      have hle : n ≤ w := by omega
      simp [hle]
    rw [Function.iterate_succ_apply', ih (by omega), topBitPass_xor, htop, ← BitVec.shiftLeft_add,
      List.range_succ, List.foldl_append, List.foldl_cons, List.foldl_nil]

/-- Eight passes over a word with a byte XORed into its top take the byte's bits, bit 7 first. -/
theorem topBitPass_iterate_topByte (poly a c : BitVec (w + 1)) (b : Byte) (hw : 7 ≤ w)
    (hbit : ∀ k < 8, c.getLsbD (w - 7 + k) = b.getLsbD k) (hout : c <<< 8 = 0#(w + 1)) :
    (topBitPass poly)^[8] (a ^^^ c) =
      [7, 6, 5, 4, 3, 2, 1, 0].foldl (fun a k => bitPass poly a (b.getLsbD k)) a := by
  have hbits : [7, 6, 5, 4, 3, 2, 1, 0] = (List.range 8).map (7 - ·) := rfl
  rw [topBitPass_iterate_xor poly a c (by omega), hout, BitVec.xor_zero, hbits, List.foldl_map]
  refine List.foldl_ext _ _ a fun a j hj => ?_
  have hj : j < 8 := List.mem_range.1 hj
  rw [← hbit (7 - j) (by omega), show w - 7 + (7 - j) = w - j by omega]

/-- Settles O16: the byte is the whole CRC-8 word, and the top half of the CRC-16 word. -/
theorem crcTakesBitSevenFirst : Obligations.CrcTakesBitSevenFirst := by
  refine ⟨fun acc b => ?_, fun acc b => ?_⟩
  · exact topBitPass_iterate_topByte (w := 7) Config.crc8Poly acc b b le_rfl (by simp) (by simp)
  · have hbit (k : Nat) (hk : k < 8) : (b.setWidth 16 <<< 8).getLsbD (15 - 7 + k) = b.getLsbD k := by
      have hin : 8 + k < 16 := by omega
      simp [hin]
    have hout : b.setWidth 16 <<< 8 <<< 8 = 0#16 := by
      rw [← BitVec.shiftLeft_add, BitVec.shiftLeft_eq_zero (by decide)]
    exact topBitPass_iterate_topByte (w := 15) Config.crc16Poly acc _ b (by decide) hbit hout

end Sys2Proof.Machine
end

section
/-! SUPPORT. A line of assembly written out and read back (30_encoding.md R56, log 10): its words, its operands, its
mnemonic. -/

namespace Sys2Proof.Machine

/-! ### Words -/

/-- A character that neither ends a word nor starts a comment. -/
def isWordChar (c : Char) : Bool := decide (c ∉ [';', ' ', '\t', '\r', '[', ']', ','])

theorem tokens_wordChar {c : Char} (hc : isWordChar c = true) (acc cs : List Char) :
    tokens acc (c :: cs) = tokens (c :: acc) cs := by
  simp only [isWordChar, List.mem_cons, List.not_mem_nil, or_false, not_or, decide_eq_true_eq] at hc
  obtain ⟨hsemi, hspace, htab, hcr, hopen, hclose, hcomma⟩ := hc
  simp [tokens, hsemi, hspace, htab, hcr, hopen, hclose, hcomma]

/-- The characters of a word are collected, last first. -/
theorem tokens_word_append {w : List Char} (hw : w.all isWordChar = true) (acc rest : List Char) :
    tokens acc (w ++ rest) = tokens (w.reverse ++ acc) rest := by
  induction w generalizing acc with
  | nil => rfl
  | cons c w ih =>
    rw [List.all_cons, Bool.and_eq_true] at hw
    obtain ⟨hc, hw⟩ := hw
    rw [List.cons_append, tokens_wordChar hc, ih hw, List.reverse_cons, List.append_assoc]
    rfl

/-- What can be read as one word. -/
structure IsWord (w : List Char) : Prop where
  ne_nil : w ≠ []
  chars : w.all isWordChar = true

variable {w : List Char}

@[simp] theorem flushWord_nil : flushWord [] = [] := rfl

theorem IsWord.flush (h : IsWord w) : flushWord w.reverse = [.word w] := by
  rw [flushWord, if_neg (by simpa using h.ne_nil), List.reverse_reverse]

/-- A word at the end of the line. -/
theorem IsWord.tokens_end (h : IsWord w) : tokens [] w = [.word w] := by
  have hword := tokens_word_append h.chars [] []
  rw [List.append_nil, List.append_nil] at hword
  exact hword.trans h.flush

theorem IsWord.tokens_space (h : IsWord w) (rest : List Char) :
    tokens [] (w ++ ' ' :: rest) = .word w :: tokens [] rest := by
  rw [tokens_word_append h.chars, List.append_nil]
  simp [tokens, h.flush]

theorem IsWord.tokens_comma (h : IsWord w) (rest : List Char) :
    tokens [] (w ++ ',' :: rest) = .word w :: .comma :: tokens [] rest := by
  rw [tokens_word_append h.chars, List.append_nil]
  simp [tokens, h.flush]

theorem IsWord.tokens_close (h : IsWord w) : tokens [] (w ++ [']']) = [.word w, .closeList] := by
  rw [tokens_word_append h.chars, List.append_nil]
  simp [tokens, h.flush]

/-! ### Operands -/

theorem digitValue_hexDigit {n : Nat} (h : n < 16) : digitValue (hexDigit n) = some n := by
  revert n
  decide

theorem isWordChar_hexDigit {n : Nat} (h : n < 16) : isWordChar (hexDigit n) = true := by
  revert n
  decide

theorem byteText_isWord (b : Byte) : IsWord (byteText b) := by
  have hhigh : isWordChar (hexDigit (b.toNat / 16)) = true := isWordChar_hexDigit (by omega)
  have hlow : isWordChar (hexDigit (b.toNat % 16)) = true := isWordChar_hexDigit (by omega)
  have hprefix : isWordChar '0' = true ∧ isWordChar 'x' = true := by decide
  exact ⟨nofun, by simp [byteText, hhigh, hlow, hprefix]⟩

/-- Two hexadecimal digits spell the byte they were written from. -/
theorem wordByte_byteText (b : Byte) : wordByte (byteText b) = some b := by
  have hhigh : digitValue (hexDigit (b.toNat / 16)) = some (b.toNat / 16) := digitValue_hexDigit (by omega)
  have hlow : digitValue (hexDigit (b.toNat % 16)) = some (b.toNat % 16) := digitValue_hexDigit (by omega)
  rw [byteText, wordByte, hhigh, hlow]
  simp [Nat.div_add_mod]

theorem byteOperand_byteText (b : Byte) : byteOperand (tokens [] (byteText b)) = some b := by
  rw [(byteText_isWord b).tokens_end]
  exact wordByte_byteText b

/-- The bytes of a list after its bracket, each read up to the comma or the bracket that follows it. -/
theorem listTail_bytesText (b : Byte) (bs : List Byte) :
    listTail (tokens [] (byteText b ++ moreBytesText bs ++ [']'])) = some (b :: bs) := by
  induction bs generalizing b with
  | nil =>
    rw [moreBytesText, List.append_nil, (byteText_isWord b).tokens_close]
    simp [listTail, wordByte_byteText]
  | cons c bs ih =>
    have hsplit : byteText b ++ moreBytesText (c :: bs) ++ [']'] =
        byteText b ++ ',' :: ' ' :: (byteText c ++ moreBytesText bs ++ [']']) := by simp [moreBytesText]
    have hspace (cs : List Char) : tokens [] (' ' :: cs) = tokens [] cs := by simp [tokens]
    rw [hsplit, (byteText_isWord b).tokens_comma, hspace]
    simp only [listTail, wordByte_byteText, ih c]

/-- A bracket alone on the line after it makes no tail, so where there is one it is the list. -/
theorem listOperand_of_listTail {ts : List Token} {bs : List Byte} (h : listTail ts = some bs) :
    listOperand (.openList :: ts) = some bs := by
  have hts : ts ≠ [.closeList] := by
    rintro rfl
    cases h
  rw [listOperand]
  · exact h
  · exact hts

theorem listOperand_bytesText (bs : List Byte) : listOperand (tokens [] (bytesText bs)) = some bs := by
  cases bs with
  | nil => decide
  | cons b bs =>
    have hopen (cs : List Char) : tokens [] ('[' :: cs) = .openList :: tokens [] cs := by simp [tokens]
    rw [bytesText, List.cons_append, List.cons_append, hopen]
    exact listOperand_of_listTail (listTail_bytesText b bs)

/-! ### Lines -/

/-- A line of a mnemonic and its operand. -/
theorem readLine_operand (h : IsWord w) (text : List Char) :
    readLine (w ++ ' ' :: text) = (readMnemonic w (tokens [] text)).map some := by
  rw [readLine, h.tokens_space]

variable {m : List Char}

/-- A mnemonic that takes a byte. -/
theorem readLine_byteOperand (hm : m = w ++ [' ']) (h : IsWord w) {f : Byte → AsmLine}
    (hf : ∀ ts, readMnemonic w ts = (byteOperand ts).map f) (b : Byte) :
    readLine (m ++ byteText b) = some (some (f b)) := by
  rw [hm, List.append_assoc, List.singleton_append, readLine_operand h, hf, byteOperand_byteText]
  rfl

/-- A mnemonic that takes a list. -/
theorem readLine_listOperand (hm : m = w ++ [' ']) (h : IsWord w) {f : List Byte → AsmLine}
    (hf : ∀ ts, readMnemonic w ts = (listOperand ts).map f) (bs : List Byte) :
    readLine (m ++ bytesText bs) = some (some (f bs)) := by
  rw [hm, List.append_assoc, List.singleton_append, readLine_operand h, hf, listOperand_bytesText]
  rfl

theorem readLine_instrText (i : Instr) : readLine (instrText i) = some (some (.op i)) := by
  cases i with
  | rxByte b =>
    exact readLine_byteOperand (w := "RX_BYTE".toList) (by decide) ⟨by decide, by decide⟩ (fun _ => rfl) b
  | txSendV2 p =>
    exact readLine_listOperand (w := "TX_SEND_V2".toList) (by decide) ⟨by decide, by decide⟩ (fun _ => rfl) p
  | txSendLegacy body =>
    exact readLine_listOperand (w := "TX_SEND_LEGACY".toList) (by decide) ⟨by decide, by decide⟩ (fun _ => rfl) body
  | crc8Byte b =>
    exact readLine_byteOperand (w := "CRC8_BYTE".toList) (by decide) ⟨by decide, by decide⟩ (fun _ => rfl) b
  | crc16Byte b =>
    exact readLine_byteOperand (w := "CRC16_BYTE".toList) (by decide) ⟨by decide, by decide⟩ (fun _ => rfl) b
  | crc8Init | crc16Init | clearCrcErr | reset => decide

theorem readLine_lineText (l : AsmLine) : readLine (lineText l) = some (some l) := by
  cases l with
  | op i => exact readLine_instrText i
  | rxBytes bs =>
    exact readLine_listOperand (w := "RX_BYTES".toList) (by decide) ⟨by decide, by decide⟩ (fun _ => rfl) bs
  | rxV2 p => exact readLine_listOperand (w := "RX_V2".toList) (by decide) ⟨by decide, by decide⟩ (fun _ => rfl) p
  | rxLegacy c =>
    exact readLine_listOperand (w := "RX_LEGACY".toList) (by decide) ⟨by decide, by decide⟩ (fun _ => rfl) c
  | crc8Buf bs =>
    exact readLine_listOperand (w := "CRC8_BUF".toList) (by decide) ⟨by decide, by decide⟩ (fun _ => rfl) bs
  | crc16Buf bs =>
    exact readLine_listOperand (w := "CRC16_BUF".toList) (by decide) ⟨by decide, by decide⟩ (fun _ => rfl) bs

/-- Settles O8: `readLine_lineText`, and the expansions as they are defined, the two with a condition under it. -/
theorem assemblyReadsBackAndExpands : Obligations.AssemblyReadsBackAndExpands :=
  ⟨readLine_lineText, fun _ => rfl, fun _ => rfl, fun _ h₁ h₂ => if_pos ⟨h₁, h₂⟩, fun _ hc => if_pos hc,
    fun _ => rfl, fun _ => rfl⟩

end Sys2Proof.Machine
end
